-- ==== Sys2Proof/Word.lean ====
section
/-! DEFINITION. The word types of the REVFX-FINE core (40_fixed_point.md R100, R105; 30_encoding.md R80). -/

namespace Sys2Proof

/-- The sample format `Q`: 32-bit two's complement, value `raw / 2^24` (R100). -/
abbrev Q := BitVec 32

/-- The accumulator format `QA`: 72-bit two's complement, value `raw / 2^48` (R105). -/
abbrev QA := BitVec 72

/-- One command word on `CMD[31:0]` (R43, R80). -/
abbrev CmdWord := BitVec 32

/-- One stereo frame: the two samples of one sampling instant (R12, R42). -/
structure Frame where
  l : Q
  r : Q
  deriving DecidableEq, Repr

end Sys2Proof
end

