-- ==== Sys2Proof/Config.lean ====
section
/-! DEFINITION. What an implementation fixes (the record `CFG` of 00_scope.md R7) and the free values of the model.
`CFG` is plain data; its well-formedness `Cfg.WF` (R8) is in Machine/Geometry.lean, the two concrete configurations of
92_eei_decisions.md are in Machine/Configs.lean. -/

namespace Sys2Proof

/-- Coefficients `(b0, b1, a1)` of a one-pole filter, `a1` subtracted (R130, C1). -/
structure Coef1 where
  b0 : Q
  b1 : Q
  a1 : Q
  deriving DecidableEq, Repr

/-- Coefficients `(b0, b1, b2, a1, a2)` of a two-pole filter, `a1` and `a2` subtracted (R130, C1). -/
structure Coef2 where
  b0 : Q
  b1 : Q
  b2 : Q
  a1 : Q
  a2 : Q
  deriving DecidableEq, Repr

/-- The constants of one comb line: `COMB_D[i]`, `COMB_CAP[i]`, `DAMP[i]` (R7, R140). -/
structure CombCfg where
  delay : Nat
  cap : Nat
  damp : Coef1
  deriving DecidableEq, Repr

/-- The constants of one all-pass line: `AP_D[j]`, `AP_CAP[j]`, `AP_G[j]` (R7, R150). -/
structure ApCfg where
  delay : Nat
  cap : Nat
  gain : Q
  deriving DecidableEq, Repr

/-- The configuration `CFG` (R7). `N`, `M` and `LUT_STEPS` are the lengths of `combs`, `aps` and `glut`. -/
structure Cfg where
  /-- `FS_HZ` -/
  fsHz : Nat
  /-- `PRE_D` -/
  preD : Nat
  /-- `PRE_CAP` -/
  preCap : Nat
  /-- the `N` comb lines, line 0 first -/
  combs : List CombCfg
  /-- the `M` all-pass lines, line 0 first -/
  aps : List ApCfg
  /-- `LP` -/
  lp : Coef2
  /-- `HP` -/
  hp : Coef2
  /-- `GLUT`: the `LUT_STEPS` rows of `N` gains, row 0 first -/
  glut : List (List Q)
  /-- `COMB_NORM` -/
  combNorm : Q
  /-- `SC_PRE` -/
  scPre : Q
  /-- `SC_POST` -/
  scPost : Q
  /-- `MIX_RESET` -/
  mixReset : Int
  /-- `MEM_WORDS`, the strap of R45 -/
  memWords : Nat
  /-- `AW`, the DMEM address width -/
  aw : Nat
  /-- `GETP_UNKNOWN` -/
  getpUnknown : BitVec 32
  deriving DecidableEq, Repr

/-- `N`, the number of comb lines (R7). -/
def Cfg.n (c : Cfg) : Nat := c.combs.length

/-- `M`, the number of all-pass lines (R7). -/
def Cfg.m (c : Cfg) : Nat := c.aps.length

/-- `LUT_STEPS`, the number of rows of the gain table (R7). -/
def Cfg.lutSteps (c : Cfg) : Nat := c.glut.length

/-! The free values (log 7, 8, 15): what R48, R195 and R210 call unspecified. `draw` is the value of `State.freeCount` when the
value is drawn, `which` tells the registers of one kind apart. -/

/-- A free value of `ACC` or of a tap register. -/
opaque Config.freeAcc (draw which : Nat) : QA

/-- A free value of a gain or weight register. -/
opaque Config.freeQ (draw which : Nat) : Q

/-- A free value of a DMEM word, by its address. -/
opaque Config.freeWord (draw addr : Nat) : Q

/-- A free value of a 10-bit parameter register. -/
opaque Config.freeParam (draw which : Nat) : BitVec 10

/-- A free value of `P_MIX`. -/
opaque Config.freeMix (draw : Nat) : BitVec 11

/-- A free value of a 32-bit output port: `OUT_L`, `OUT_R` or `RSP_DATA`. -/
opaque Config.freePort (draw which : Nat) : BitVec 32

/-- A free value of `RSP_STATUS`. -/
opaque Config.freeStatus (draw : Nat) : BitVec 4

/-- A free value of a cursor, cut to the cursor's register width where it is used. -/
opaque Config.freeCursor (draw which : Nat) : Nat

end Sys2Proof
end

