-- ==== Sys2Proof/Syntax.lean ====
section
/-! DEFINITION. The instructions: one constructor per row of spec/opcode_table.json, in the table's order.
The 14 commands are 32-bit words (30_encoding.md R80 to R88); the 15 internal operations have a 5-bit STEP code
(R89) and no operand field: their operands are registers and wires. Bits a command ignores (R88(d)) and the free bits of
a reserved word are operands here, so that no bit of a word is lost; no meaning uses them. -/

namespace Sys2Proof

/-- One row of the opcode table each. -/
inductive Instr where
  /-- INIT: `INCH` = CMD[27:26], `OUTCH` = CMD[25:24], `FS` = CMD[23:0] (R82). -/
  | init (inch outch : BitVec 2) (fs : BitVec 24)
  /-- SETP with `ID` = 0; `VAL` = CMD[23:0] (R83, R85). -/
  | setpTime (val : BitVec 24)
  /-- SETP with `ID` = 1. -/
  | setpDepth (val : BitVec 24)
  /-- SETP with `ID` = 2. -/
  | setpMix (val : BitVec 24)
  /-- SETP with `ID` in 3..15 (R88(b)). -/
  | setpUnknown (id : BitVec 4) (val : BitVec 24)
  /-- GETP with `ID` = 0; CMD[23:0] ignored (R84). -/
  | getpTime (ign : BitVec 24)
  /-- GETP with `ID` = 1. -/
  | getpDepth (ign : BitVec 24)
  /-- GETP with `ID` = 2. -/
  | getpMix (ign : BitVec 24)
  /-- GETP with `ID` in 3..15 (R88(c)). -/
  | getpUnknown (id : BitVec 4) (ign : BitVec 24)
  /-- RENDER: `NFR` = CMD[23:0]; CMD[27:24] ignored (R84). -/
  | render (ign : BitVec 4) (nfr : BitVec 24)
  /-- A word with `OP` = 0000 (R88(a)). -/
  | reservedOp0 (rest : BitVec 28)
  /-- A word with `OP` = 0101. -/
  | reservedOp5 (rest : BitVec 28)
  /-- A word with `OP` = 0110 or 0111: bits 31:29 are 011. -/
  | reservedOp6_7 (rest : BitVec 29)
  /-- A word with `OP` = 1000 .. 1111: bit 31 is 1. -/
  | reservedOp8_15 (rest : BitVec 31)
  /-- STEP 00000: nothing, between commands (R26). -/
  | idle
  /-- STEP 00001: block prologue (R176). -/
  | blkpro
  /-- STEP 00010: gain table lookup (R144). -/
  | gsched
  /-- STEP 00011: mono collapse and send scaling (R160). -/
  | send
  /-- STEP 00100: input lowpass (R132). -/
  | biqLp
  /-- STEP 00101: input highpass (R132). -/
  | biqHp
  /-- STEP 00110: pre-delay (R123). -/
  | pdly
  /-- STEP 00111: one comb line, `IDX` = i (R141). -/
  | comb
  /-- STEP 01000: comb-bank normalisation (R143). -/
  | cnorm
  /-- STEP 01001: one all-pass line, `IDX` = j (R151). -/
  | ap
  /-- STEP 01010: crossfade, left (R161). -/
  | xfadeL
  /-- STEP 01011: soft clip, left (R163). -/
  | sclipL
  /-- STEP 01100: crossfade, right (R161). -/
  | xfadeR
  /-- STEP 01101: soft clip, right (R163). -/
  | sclipR
  /-- STEP 01110: present the output frame, decrement `FCNT` (R177). -/
  | emit
  deriving DecidableEq, Repr

/-- What the core decodes: a command word from the command port (R80), or the code in the `STEP` register (R89).
These are the two "space" values of the opcode table. -/
inductive Code where
  | cmd (w : CmdWord)
  | seq (c : BitVec 5)
  deriving DecidableEq, Repr

end Sys2Proof
end

