-- ==== Sys2Proof/WellFormed.lean ====
section
/-! DEFINITION. When an instruction is one that some word or STEP code encodes: the only operand with a forbidden
value is the identifier of the two UNKNOWN rows, which is 3..15 (30_encoding.md R85, R88(b), (c)). -/

namespace Sys2Proof

/-- An identifier that names no parameter register (R85: `3..15 unrecognised`). -/
def unrecognisedId (id : BitVec 4) : Bool := 3 ≤ id.toNat

/-- The instruction has an encoding of its own row. -/
def Instr.wf : Instr → Bool
  | .setpUnknown id _ => unrecognisedId id
  | .getpUnknown id _ => unrecognisedId id
  | .init _ _ _ => true
  | .setpTime _ => true
  | .setpDepth _ => true
  | .setpMix _ => true
  | .getpTime _ => true
  | .getpDepth _ => true
  | .getpMix _ => true
  | .render _ _ => true
  | .reservedOp0 _ => true
  | .reservedOp5 _ => true
  | .reservedOp6_7 _ => true
  | .reservedOp8_15 _ => true
  | .idle => true
  | .blkpro => true
  | .gsched => true
  | .send => true
  | .biqLp => true
  | .biqHp => true
  | .pdly => true
  | .comb => true
  | .cnorm => true
  | .ap => true
  | .xfadeL => true
  | .sclipL => true
  | .xfadeR => true
  | .sclipR => true
  | .emit => true

end Sys2Proof
end

