-- ==== Sys2Proof/Decode.lean ====
section
/-! DEFINITION. Decoding (30_encoding.md R80 to R89) and, after it, the encoder.
A command word always decodes: reserved words are rows of the table (R87). Of the 32 STEP codes, 01111 .. 11111 are
unused (R89) and are rejected by name. -/

namespace Sys2Proof

/-- Why a code has no instruction. -/
inductive DecodeError where
  /-- A STEP code 01111 .. 11111, which R89 calls unused. -/
  | unusedStepCode (c : BitVec 5)
  deriving DecidableEq, Repr

/-! The STEP codes of R89. -/

/-- IDLE -/
abbrev Seq.idle : BitVec 5 := 0#5
/-- BLKPRO -/
abbrev Seq.blkpro : BitVec 5 := 1#5
/-- GSCHED -/
abbrev Seq.gsched : BitVec 5 := 2#5
/-- SEND -/
abbrev Seq.send : BitVec 5 := 3#5
/-- BIQ.LP -/
abbrev Seq.biqLp : BitVec 5 := 4#5
/-- BIQ.HP -/
abbrev Seq.biqHp : BitVec 5 := 5#5
/-- PDLY -/
abbrev Seq.pdly : BitVec 5 := 6#5
/-- COMB -/
abbrev Seq.comb : BitVec 5 := 7#5
/-- CNORM -/
abbrev Seq.cnorm : BitVec 5 := 8#5
/-- AP -/
abbrev Seq.ap : BitVec 5 := 9#5
/-- XFADE.L -/
abbrev Seq.xfadeL : BitVec 5 := 10#5
/-- SCLIP.L -/
abbrev Seq.sclipL : BitVec 5 := 11#5
/-- XFADE.R -/
abbrev Seq.xfadeR : BitVec 5 := 12#5
/-- SCLIP.R -/
abbrev Seq.sclipR : BitVec 5 := 13#5
/-- EMIT -/
abbrev Seq.emit : BitVec 5 := 14#5

/-! The fields of a command word (R80, R81). -/

/-- `OP` = CMD[31:28] -/
def fieldOp (w : CmdWord) : BitVec 4 := w.extractLsb' 28 4
/-- `A` = CMD[27:24], the identifier `ID` of format P -/
def fieldA (w : CmdWord) : BitVec 4 := w.extractLsb' 24 4
/-- `INCH` = CMD[27:26] -/
def fieldInch (w : CmdWord) : BitVec 2 := w.extractLsb' 26 2
/-- `OUTCH` = CMD[25:24] -/
def fieldOutch (w : CmdWord) : BitVec 2 := w.extractLsb' 24 2
/-- `IMM` = CMD[23:0] -/
def fieldImm (w : CmdWord) : BitVec 24 := w.extractLsb' 0 24

/-- SETP by its identifier (R85, R86). -/
def decodeSetp (id : BitVec 4) (val : BitVec 24) : Instr :=
  if id = 0#4 then .setpTime val
  else if id = 1#4 then .setpDepth val
  else if id = 2#4 then .setpMix val
  else .setpUnknown id val

/-- GETP by its identifier (R85, R86). -/
def decodeGetp (id : BitVec 4) (ign : BitVec 24) : Instr :=
  if id = 0#4 then .getpTime ign
  else if id = 1#4 then .getpDepth ign
  else if id = 2#4 then .getpMix ign
  else .getpUnknown id ign

/-- The row of R86 that a command word selects: by `OP` first, and for SETP and GETP by `ID` second (R87). -/
def decodeCmd (w : CmdWord) : Instr :=
  let op := fieldOp w
  if op = 0#4 then .reservedOp0 (w.extractLsb' 0 28)
  else if op = 1#4 then .init (fieldInch w) (fieldOutch w) (fieldImm w)
  else if op = 2#4 then decodeSetp (fieldA w) (fieldImm w)
  else if op = 3#4 then decodeGetp (fieldA w) (fieldImm w)
  else if op = 4#4 then .render (fieldA w) (fieldImm w)
  else if op = 5#4 then .reservedOp5 (w.extractLsb' 0 28)
  else if op.extractLsb' 1 3 = 3#3 then .reservedOp6_7 (w.extractLsb' 0 29)
  else .reservedOp8_15 (w.extractLsb' 0 31)

/-- The operation a STEP code stands for (R89). -/
def decodeSeq (c : BitVec 5) : Except DecodeError Instr :=
  if c = Seq.idle then .ok .idle
  else if c = Seq.blkpro then .ok .blkpro
  else if c = Seq.gsched then .ok .gsched
  else if c = Seq.send then .ok .send
  else if c = Seq.biqLp then .ok .biqLp
  else if c = Seq.biqHp then .ok .biqHp
  else if c = Seq.pdly then .ok .pdly
  else if c = Seq.comb then .ok .comb
  else if c = Seq.cnorm then .ok .cnorm
  else if c = Seq.ap then .ok .ap
  else if c = Seq.xfadeL then .ok .xfadeL
  else if c = Seq.sclipL then .ok .sclipL
  else if c = Seq.xfadeR then .ok .xfadeR
  else if c = Seq.sclipR then .ok .sclipR
  else if c = Seq.emit then .ok .emit
  else .error (.unusedStepCode c)

/-- Decoding of either space. -/
def decode : Code → Except DecodeError Instr
  | .cmd w => .ok (decodeCmd w)
  | .seq c => decodeSeq c

/-- The code of an instruction, written from R81, R86 and R89. -/
def encode : Instr → Code
  | .init inch outch fs => .cmd (1#4 ++ inch ++ outch ++ fs)
  | .setpTime val => .cmd (2#4 ++ 0#4 ++ val)
  | .setpDepth val => .cmd (2#4 ++ 1#4 ++ val)
  | .setpMix val => .cmd (2#4 ++ 2#4 ++ val)
  | .setpUnknown id val => .cmd (2#4 ++ id ++ val)
  | .getpTime ign => .cmd (3#4 ++ 0#4 ++ ign)
  | .getpDepth ign => .cmd (3#4 ++ 1#4 ++ ign)
  | .getpMix ign => .cmd (3#4 ++ 2#4 ++ ign)
  | .getpUnknown id ign => .cmd (3#4 ++ id ++ ign)
  | .render ign nfr => .cmd (4#4 ++ ign ++ nfr)
  | .reservedOp0 rest => .cmd (0#4 ++ rest)
  | .reservedOp5 rest => .cmd (5#4 ++ rest)
  | .reservedOp6_7 rest => .cmd (3#3 ++ rest)
  | .reservedOp8_15 rest => .cmd (1#1 ++ rest)
  | .idle => .seq Seq.idle
  | .blkpro => .seq Seq.blkpro
  | .gsched => .seq Seq.gsched
  | .send => .seq Seq.send
  | .biqLp => .seq Seq.biqLp
  | .biqHp => .seq Seq.biqHp
  | .pdly => .seq Seq.pdly
  | .comb => .seq Seq.comb
  | .cnorm => .seq Seq.cnorm
  | .ap => .seq Seq.ap
  | .xfadeL => .seq Seq.xfadeL
  | .sclipL => .seq Seq.sclipL
  | .xfadeR => .seq Seq.xfadeR
  | .sclipR => .seq Seq.sclipR
  | .emit => .seq Seq.emit

/-- One row of the command half of the opcode table: `match`, `mask` (R86, spec/opcode_table.json). -/
structure Row where
  mnemonic : String
  pattern : BitVec 32
  mask : BitVec 32
  deriving DecidableEq, Repr

/-- The table's command rows in the table's order; R87 takes the first that matches. -/
def cmdRows : List Row := [
  ⟨"INIT", 0x10000000#32, 0xF0000000#32⟩,
  ⟨"SETP.TIME", 0x20000000#32, 0xFF000000#32⟩,
  ⟨"SETP.DEPTH", 0x21000000#32, 0xFF000000#32⟩,
  ⟨"SETP.MIX", 0x22000000#32, 0xFF000000#32⟩,
  ⟨"SETP.UNKNOWN", 0x20000000#32, 0xF0000000#32⟩,
  ⟨"GETP.TIME", 0x30000000#32, 0xFF000000#32⟩,
  ⟨"GETP.DEPTH", 0x31000000#32, 0xFF000000#32⟩,
  ⟨"GETP.MIX", 0x32000000#32, 0xFF000000#32⟩,
  ⟨"GETP.UNKNOWN", 0x30000000#32, 0xF0000000#32⟩,
  ⟨"RENDER", 0x40000000#32, 0xF0000000#32⟩,
  ⟨"RESERVED.OP0", 0x00000000#32, 0xF0000000#32⟩,
  ⟨"RESERVED.OP5", 0x50000000#32, 0xF0000000#32⟩,
  ⟨"RESERVED.OP6_7", 0x60000000#32, 0xE0000000#32⟩,
  ⟨"RESERVED.OP8_15", 0x80000000#32, 0x80000000#32⟩]

/-- `(word AND mask) = match` (R87). -/
def Row.hits (r : Row) (w : CmdWord) : Bool := w &&& r.mask == r.pattern

/-- The mnemonic of the first row, in the table's order, that a word matches (R87). -/
def tableRow (w : CmdWord) : Option String := (cmdRows.find? (fun r => r.hits w)).map (·.mnemonic)

/-- The mnemonic of the instruction's row in the opcode table. -/
def Instr.mnemonic : Instr → String
  | .init _ _ _ => "INIT"
  | .setpTime _ => "SETP.TIME"
  | .setpDepth _ => "SETP.DEPTH"
  | .setpMix _ => "SETP.MIX"
  | .setpUnknown _ _ => "SETP.UNKNOWN"
  | .getpTime _ => "GETP.TIME"
  | .getpDepth _ => "GETP.DEPTH"
  | .getpMix _ => "GETP.MIX"
  | .getpUnknown _ _ => "GETP.UNKNOWN"
  | .render _ _ => "RENDER"
  | .reservedOp0 _ => "RESERVED.OP0"
  | .reservedOp5 _ => "RESERVED.OP5"
  | .reservedOp6_7 _ => "RESERVED.OP6_7"
  | .reservedOp8_15 _ => "RESERVED.OP8_15"
  | .idle => "IDLE"
  | .blkpro => "BLKPRO"
  | .gsched => "GSCHED"
  | .send => "SEND"
  | .biqLp => "BIQ.LP"
  | .biqHp => "BIQ.HP"
  | .pdly => "PDLY"
  | .comb => "COMB"
  | .cnorm => "CNORM"
  | .ap => "AP"
  | .xfadeL => "XFADE.L"
  | .sclipL => "SCLIP.L"
  | .xfadeR => "XFADE.R"
  | .sclipR => "SCLIP.R"
  | .emit => "EMIT"

/-- The host's question: the instruction the decoder reads from a row's bits. A command row has 32 bits; the table gives
a STEP row a 5-bit code, one whole byte, whose bits above bit 4 are 0 (log 16). -/
def decodeTableWord (nbits w : Nat) : Option Instr :=
  if nbits ≤ 8 then
    if w < 32 then
      match decode (.seq (BitVec.ofNat 5 w)) with
      | .ok i => some i
      | .error _ => none
    else none
  else
    match decode (.cmd (BitVec.ofNat 32 w)) with
    | .ok i => some i
    | .error _ => none

end Sys2Proof
end

