-- ==== Sys2Proof/Machine/Geometry.lean ====
section
/-! DEFINITION. What follows from the configuration alone: the region map of DMEM (20_memory.md R61, R62), the cursor
widths (10_state.md R23) and well-formedness `WF(CFG)` (00_scope.md R8). -/

namespace Sys2Proof

/-- `ONE = 2^24`, the raw integer of 1.0 (R100). -/
def oneRaw : Int := 16777216

/-- `QMIN = -2^31` (R100). -/
def qMin : Int := -2147483648

/-- `QMAX = 2^31 - 1` (R100). -/
def qMax : Int := 2147483647

/-- `THIRD = 5592405` (R7). -/
def third : Q := 5592405#32

/-- `BASE_COMB[i]`: after the pre-delay region and the comb lines before `i` (R61). -/
def Cfg.combBase (c : Cfg) (i : Nat) : Nat := c.preCap + ((c.combs.take i).map (·.cap)).sum

/-- `BASE_AP[j]`: after all comb lines and the all-pass lines before `j` (R61). -/
def Cfg.apBase (c : Cfg) (j : Nat) : Nat := c.combBase c.n + ((c.aps.take j).map (·.cap)).sum

/-- `REQ_WORDS` (R62). -/
def Cfg.reqWords (c : Cfg) : Nat :=
  c.preCap + (c.combs.map (·.cap)).sum + (c.aps.map (·.cap)).sum

/-- The width of a cursor register of a line of capacity `cap`: `ceil(log2 cap)`, at least 1 (R23). -/
def cursorWidth (cap : Nat) : Nat := Nat.log2 (cap - 1) + 1

/-- A row of the gain table is one gain per comb line, each in `[0, ONE)` (R8(e)). -/
abbrev Cfg.gainRowWF (c : Cfg) (row : List Q) : Prop :=
  row.length = c.n ∧ row.all (fun g => 0 ≤ g.toInt ∧ g.toInt < oneRaw)

/-- `WF(CFG)`, clauses (a) to (i) of R8. Clause (g)'s range of the Q-typed constants holds by their type. -/
abbrev Cfg.WF (c : Cfg) : Prop :=
  -- (a)
  (1 ≤ c.n ∧ c.n ≤ 64 ∧ 1 ≤ c.m ∧ c.m ≤ 64) ∧
  -- (b)
  (1 ≤ c.preD ∧ c.preD ≤ c.preCap) ∧
  -- (c)
  c.combs.all (fun l => 1 ≤ l.delay ∧ l.delay < l.cap) ∧
  -- (d), (f)
  c.aps.all (fun l => (1 ≤ l.delay ∧ l.delay ≤ l.cap) ∧ -oneRaw < l.gain.toInt ∧ l.gain.toInt < oneRaw) ∧
  -- (e)
  c.glut.all (fun row => c.gainRowWF row) ∧
  -- (g)
  (0 < c.scPre.toInt ∧ 0 < c.scPost.toInt) ∧
  -- (h)
  c.reqWords ≤ 2 ^ c.aw ∧
  -- (i)
  (1 ≤ c.lutSteps ∧ c.lutSteps ≤ 1024) ∧ (-1000 ≤ c.mixReset ∧ c.mixReset ≤ 1000) ∧ (1 ≤ c.fsHz ∧ c.fsHz < 2 ^ 24)

end Sys2Proof
end

