-- ==== Sys2Proof/Machine/Configs.lean ====
section
/-! DEFINITION. The two concrete configurations of 92_eei_decisions.md (D24, D25; 00_scope.md R9), field by field from
its tables. Neither is the original's: they are the spec's own examples. -/

namespace Sys2Proof

/-- The comb delays `COMB_D` of `CFG_REF`. -/
def Cfg.refCombD : List Nat := [83, 149, 241, 367, 503, 653, 811, 997]

/-- Row `k` of `CFG_REF`'s gain table: `GLUT[k][i] = 16777216 - (COMB_D[i] * (64 - k)) * 256`. -/
def Cfg.refGainRow (k : Nat) : List Q :=
  Cfg.refCombD.map (fun d => BitVec.ofNat 32 (16777216 - (d * (64 - k)) * 256))

/-- `CFG_REF` (D24): the full-size example, `N = 8`, `M = 4`. -/
def Cfg.ref : Cfg where
  fsHz := 48000
  preD := 1440
  preCap := 1440
  combs := Cfg.refCombD.map (fun d => ⟨d, d + 1, ⟨12582912#32, 0#32, BitVec.ofInt 32 (-4194304)⟩⟩)
  aps := [337, 211, 127, 53].map (fun d => ⟨d, d, 11744051#32⟩)
  lp := ⟨3465704#32, 6931409#32, 3465704#32, BitVec.ofInt 32 (-6199641), 3285243#32⟩
  hp := ⟨16591899#32, BitVec.ofInt 32 (-33183798), 16591899#32, BitVec.ofInt 32 (-33181751), 16408629#32⟩
  glut := (List.range 64).map Cfg.refGainRow
  combNorm := 2097152#32
  scPre := 8388608#32
  scPost := 33554432#32
  mixReset := 0
  memWords := 8192
  aw := 13
  getpUnknown := 0x80000000#32

/-- `CFG_TINY` (D25): the test fixture, `N = 2`, `M = 1`. -/
def Cfg.tiny : Cfg where
  fsHz := 48000
  preD := 2
  preCap := 2
  combs := [⟨2, 3, ⟨8388608#32, 0#32, BitVec.ofInt 32 (-8388608)⟩⟩,
            ⟨3, 4, ⟨8388608#32, 0#32, BitVec.ofInt 32 (-8388608)⟩⟩]
  aps := [⟨1, 2, 8388608#32⟩]
  lp := ⟨4194304#32, 8388608#32, 4194304#32, 0#32, 4194304#32⟩
  hp := ⟨16777216#32, BitVec.ofInt 32 (-16777216), 0#32, BitVec.ofInt 32 (-8388608), 0#32⟩
  glut := [[8388608#32, 4194304#32], [8388608#32, 8388608#32], [12582912#32, 8388608#32],
           [12582912#32, 12582912#32]]
  combNorm := 8388608#32
  scPre := 8388608#32
  scPost := 33554432#32
  mixReset := 0
  memWords := 16
  aw := 4
  getpUnknown := 0x80000000#32

end Sys2Proof
end

