-- ==== Sys2Proof/Machine/State.lean ====
section
/-! DEFINITION. The state of the core (10_state.md R20 to R48) as plain data, the reasons a step can stop, and the
state after reset. What is stored is what the spec names; the fields of the model's own (`frameOut`, `rspOut`, `wires`,
`freeCount`) are marked. -/

namespace Sys2Proof.Machine

/-- `MODE` (R24, R199). -/
inductive Mode where
  /-- 0: no usable engine -/
  | uninit
  /-- 1: initialised -/
  | ready
  deriving DecidableEq, Repr

/-- One word of DMEM at a word address (R60). The spec has no byte addressing (R64), so a cell is a word (log 4). -/
abbrev Cell := Nat × Q

/-- DMEM: the words that do not read as 0, addresses strictly rising (Ops: `Memory.wf`; log 4, 5). -/
abbrev Memory := List Cell

/-- One response: `RSP_STATUS` and `RSP_DATA` (R44, R90). -/
structure Response where
  status : BitVec 4
  data : BitVec 32
  deriving DecidableEq, Repr

/-- The values that pass from one operation of a frame to a later one (R12 calls them wires; R177 names them). They are
the model's own, because one step is one operation (log 10). -/
structure Wires where
  /-- left input sample of the frame -/
  xL : Q
  /-- right input sample of the frame -/
  xR : Q
  /-- result of SEND -/
  s : Q
  /-- result of BIQ.LP -/
  t1 : Q
  /-- result of BIQ.HP, the tone stage's output -/
  t2 : Q
  /-- result of PDLY -/
  p : Q
  /-- `r[0 .. IDX-1]`: what the comb lines have returned so far in this frame (R142) -/
  r : List Q
  /-- `v` of APCH: the result of CNORM, then of each AP; after the last the wet sample `w` (R152) -/
  v : Q
  /-- result of XFADE.L -/
  mL : Q
  /-- result of SCLIP.L -/
  yL : Q
  /-- result of XFADE.R -/
  mR : Q
  /-- result of SCLIP.R -/
  yR : Q
  deriving DecidableEq, Repr

/-- No frame under way. -/
def Wires.zero : Wires := ⟨0, 0, 0, 0, 0, 0, [], 0, 0, 0, 0, 0⟩

/-- The whole state. -/
structure State where
  /-- `CFG`: constant, no step changes it (R7; log 1) -/
  cfg : Cfg
  /-- `LPZ1` (R21) -/
  lpz1 : QA
  /-- `LPZ2` (R21) -/
  lpz2 : QA
  /-- `HPZ1` (R21) -/
  hpz1 : QA
  /-- `HPZ2` (R21) -/
  hpz2 : QA
  /-- `DZ[0..N-1]` (R22) -/
  dz : List QA
  /-- `PCUR` (R23) -/
  pcur : Nat
  /-- `CCUR[0..N-1]` (R23) -/
  ccur : List Nat
  /-- `ACUR[0..M-1]` (R23) -/
  acur : List Nat
  /-- `MODE` (R24) -/
  mode : Mode
  /-- `FCNT` (R25) -/
  fcnt : BitVec 24
  /-- `STEP` (R26) -/
  seq : BitVec 5
  /-- `IDX` (R27) -/
  idx : BitVec 6
  /-- `P_TIME` (R29) -/
  pTime : BitVec 10
  /-- `P_DEPTH` (R30) -/
  pDepth : BitVec 10
  /-- `P_MIX` (R31) -/
  pMix : BitVec 11
  /-- `FBG[0..N-1]` (R32) -/
  fbg : List Q
  /-- `SENDG` (R33) -/
  sendg : Q
  /-- `WETW` (R34) -/
  wetw : Q
  /-- `DRYW` (R34) -/
  dryw : Q
  /-- `ACC` (R35, R105) -/
  acc : QA
  /-- `DMEM` (R40) -/
  mem : Memory
  /-- `OUT_L` (R42) -/
  outL : Q
  /-- `OUT_R` (R42) -/
  outR : Q
  /-- `OUT_VALID` (R42): the last step gave an output frame (log 13) -/
  outValid : Bool
  /-- `RSP_STATUS` (R44) -/
  rspStatus : BitVec 4
  /-- `RSP_DATA` (R44) -/
  rspData : BitVec 32
  /-- `RSP_VALID` (R44): the last step gave a response (log 13) -/
  rspValid : Bool
  /-- the input `RST` (R45): the host asserts it before the next step (log 15) -/
  rst : Bool
  /-- the command words the host still offers on `CMD`, oldest first (R43; log 13) -/
  cmdIn : List CmdWord
  /-- the frames the host still offers on `IN_L`, `IN_R`, oldest first (R42; log 13) -/
  frameIn : List Frame
  /-- the model's own: every output frame given, in order (log 13) -/
  frameOut : List Frame
  /-- the model's own: every response given, in order (log 13) -/
  rspOut : List Response
  /-- the model's own: the wires of the frame under way (log 10) -/
  wires : Wires
  /-- the model's own: the counter the free values are drawn from (log 23) -/
  freeCount : Nat
  deriving DecidableEq, Repr

/-- The model's own stops inside an operation. Neither can happen in a state that a run reaches (R65, R201). -/
inductive Fault where
  /-- A DMEM access at an address that is not below `MEM_WORDS`; raised by the DMEM primitives. Safe: the spec says no
  such access exists in a well-formed READY engine (R65; log 6). -/
  | dmemAbsent
  /-- COMB or AP with an `IDX` that names no line, or with a register array shorter than the configuration; raised by
  COMB and AP. Safe: `IDX` is below `N` or `M` whenever they run (R27; log 6). -/
  | noSuchLine
  deriving DecidableEq, Repr

/-- Why a step has no meaning. -/
inductive Refusal where
  /-- No meaning yet; raised by the arms of `exec` alone. Safe. -/
  | notModelled (mnemonic : String)
  /-- The configuration is not well formed: refused, never given a meaning (R8, X6); raised by `step`. Safe (log 2). -/
  | illFormedConfig
  /-- `STEP` holds an unused code 01111 .. 11111, `never taken` (R89); raised by `step`. Safe: no run reaches it (log 18). -/
  | unusedStep
  deriving DecidableEq, Repr

/-- The state after RST for a given configuration: the column `after RST` of R48 (R210); a register that column calls
unspecified, and a port for whose value it has no row (`OUT_L`, `OUT_R`, `RSP_STATUS`, `RSP_DATA`), holds 0 (log 3), an array has one entry for each line. -/
def State.resetOf (c : Cfg) : State where
  cfg := c
  lpz1 := 0
  lpz2 := 0
  hpz1 := 0
  hpz2 := 0
  dz := List.replicate c.n 0
  pcur := 0
  ccur := List.replicate c.n 0
  acur := List.replicate c.m 0
  mode := .uninit
  fcnt := 0
  seq := 0
  idx := 0
  pTime := 0
  pDepth := 0
  pMix := 0
  fbg := List.replicate c.n 0
  sendg := 0
  wetw := 0
  dryw := 0
  acc := 0
  mem := []
  outL := 0
  outR := 0
  outValid := false
  rspStatus := 0
  rspData := 0
  rspValid := false
  rst := false
  cmdIn := []
  frameIn := []
  frameOut := []
  rspOut := []
  wires := Wires.zero
  freeCount := 0

/-- The machine right after reset, with the configuration `CFG_REF` (log 1). -/
def State.reset : State := State.resetOf Cfg.ref

end Sys2Proof.Machine
end

