-- ==== Sys2Proof/Machine/Operands.lean ====
section
/-! DEFINITION. The operand forms and the number formats: reading command fields (30_encoding.md R82 to R84), the
fixed-point primitives (40_fixed_point.md R101 to R103), and the pure parts of parameters, gains and weights
(43_comb_bank.md R144, 46_commands.md R173, R176). -/

namespace Sys2Proof.Machine

/-- `sat32(v)`: the only way a wider value becomes a `Q` value (R101). -/
def sat32 (v : Int) : Q :=
  if v < qMin then BitVec.ofInt 32 qMin
  else if qMax < v then BitVec.ofInt 32 qMax
  else BitVec.ofInt 32 v

/-- `rtz(a, k)`: division by `2^k` rounded toward zero, the only rounding of the core (R102). `/` on `Int` with a
positive divisor is floor division. -/
def rtz (a : Int) (k : Nat) : Int :=
  if 0 ≤ a then a / 2 ^ k else -((-a) / 2 ^ k)

/-- `qmul(a, b)` (R103). -/
def qmul (a b : Q) : Q := sat32 (rtz (a.toInt * b.toInt) 24)

/-- `clamp(v, lo, hi) = min(max(v, lo), hi)` (R10). -/
def clamp (v lo hi : Int) : Int := min (max v lo) hi

/-- `fs = zext_24(CMD[23:0])` (R82). -/
def operandFs (fs : BitVec 24) : Nat := fs.toNat

/-- `inch` or `outch = zext_2` (R82). -/
def operandChannels (n : BitVec 2) : Nat := n.toNat

/-- `raw = sext_24(CMD[23:0])` (R83). -/
def operandRaw (val : BitVec 24) : Int := val.toInt

/-- What SETP stores in `P_TIME` or `P_DEPTH`: `clamp(raw, 0, 1023)` (R173). -/
def clampParam (val : BitVec 24) : BitVec 10 := BitVec.ofInt 10 (clamp (operandRaw val) 0 1023)

/-- What SETP stores in `P_MIX`: `clamp(raw, -1000, 1000)` (R173). -/
def clampMix (val : BitVec 24) : BitVec 11 := BitVec.ofInt 11 (clamp (operandRaw val) (-1000) 1000)

/-- `gidx(t) = min(LUT_STEPS - 1, max(0, (t * LUT_STEPS) div 1024))` (R144). -/
def gidx (c : Cfg) (t : BitVec 10) : Nat :=
  min (c.lutSteps - 1) (max 0 ((t.toNat * c.lutSteps) / 1024))

/-- The row `GLUT[gidx(t)]` (R144); `WF(CFG)` gives it `N` entries. -/
def gainRow (c : Cfg) (t : BitVec 10) : List Q := c.glut.getD (gidx c t) []

/-- `P_DEPTH * 2^14`, the value of `SENDG` (R176). -/
def sendGain (depth : BitVec 10) : Q := BitVec.ofNat 32 (depth.toNat * 2 ^ 14)

/-- `((mix + 1000) * 2^24) div 2000`, the value of `WETW` (R171, R176). -/
def wetWeight (mix : Int) : Q := BitVec.ofInt 32 (((mix + 1000) * 2 ^ 24) / 2000)

/-- `ONE - WETW`, the value of `DRYW` (R171, R176). -/
def dryWeight (wet : Q) : Q := BitVec.ofInt 32 (oneRaw - wet.toInt)

end Sys2Proof.Machine
end

