-- ==== Sys2Proof/Machine/Flags.lean ====
section
/-! DEFINITION. The core has no status flags, condition codes or sticky bits (10_state.md R28): no operation computes
one, and saturation and clamping are silent. What it does report is the status of a response: the codes of
60_exceptions.md R190. -/

namespace Sys2Proof.Machine

/-- OK -/
abbrev Status.ok : BitVec 4 := 0#4
/-- ERR_SAMPLERATE (R191) -/
abbrev Status.errSampleRate : BitVec 4 := 1#4
/-- ERR_GEOMETRY (R192) -/
abbrev Status.errGeometry : BitVec 4 := 2#4
/-- ERR_MEMORY (R193) -/
abbrev Status.errMemory : BitVec 4 := 3#4
/-- ERR_UNINIT (R196) -/
abbrev Status.errUninit : BitVec 4 := 4#4
/-- ERR_ILLEGAL (R197) -/
abbrev Status.errIllegal : BitVec 4 := 5#4

/-- The failure of `INIT fs, inch, outch`, if there is one: the three checks in the order of R171 and R194, the first
that fails decides. -/
def initFailure (c : Cfg) (fs : BitVec 24) (inch outch : BitVec 2) : Option (BitVec 4) :=
  if operandFs fs ≠ c.fsHz then some Status.errSampleRate
  else if operandChannels inch ≠ 2 ∨ operandChannels outch ≠ 2 then some Status.errGeometry
  else if c.memWords < c.reqWords then some Status.errMemory
  else none

end Sys2Proof.Machine
end

