-- ==== Sys2Proof/Machine/Ops.lean ====
section
/-! DEFINITION. The named operations that the meanings are written over: DMEM and the delay lines (20_memory.md,
41_delay_line.md), the tap registers and the accumulator (40_fixed_point.md R105 to R108), the filters
(42_filters.md), the block latches, responses, and the one exception of the core: a failed INIT
(60_exceptions.md R195), with hardware reset (70_reset_and_hazards.md R210) beside it. -/

namespace Sys2Proof.Machine

/-! ## DMEM as a list of words (log 4, 5) -/

/-- What an unlisted word reads as (log 5). -/
def Memory.blank : Q := 0

/-- The word at address `a`. -/
def Memory.read : Memory → Nat → Q
  | [], _ => Memory.blank
  | (b, w) :: m, a => if a = b then w else Memory.read m a

/-- Put word `v` at address `a` and keep the canonical form. -/
def Memory.write : Memory → Nat → Q → Memory
  | [], a, v => if v = Memory.blank then [] else [(a, v)]
  | (b, w) :: m, a, v =>
    if a < b then (if v = Memory.blank then (b, w) :: m else (a, v) :: (b, w) :: m)
    else if a = b then (if v = Memory.blank then m else (a, v) :: m)
    else (b, w) :: Memory.write m a v

/-- The canonical form: addresses strictly rising from `lo` on, no listed word equal to `Memory.blank`. -/
def Memory.wfFrom : Nat → Memory → Bool
  | _, [] => true
  | lo, (b, w) :: m => lo ≤ b && w != Memory.blank && Memory.wfFrom (b + 1) m

/-- The canonical form of the whole memory. -/
def Memory.wf (m : Memory) : Bool := Memory.wfFrom 0 m

/-- Words `0 .. n-1` become 0, the others stay: INIT's clearing pass, whose order is not observable (R74, R171; log 21). -/
def Memory.clear (m : Memory) (n : Nat) : Memory := m.filter (fun c => n ≤ c.1)

/-- The free words `0 .. n-1` of a draw, in canonical form. -/
def Memory.freeWords (draw n : Nat) : Memory :=
  ((List.range n).map (fun a => (a, Config.freeWord draw a))).filter (fun c => c.2 ≠ Memory.blank)

/-- Words `0 .. n-1` become free values, the others stay (R195; log 7). -/
def Memory.scramble (m : Memory) (draw n : Nat) : Memory := Memory.freeWords draw n ++ m.clear n

/-- `MemRead(a, 1)` (R63). -/
def memRead (a : Nat) (s : State) : Except Fault Q :=
  if a < s.cfg.memWords then .ok (s.mem.read a) else .error .dmemAbsent

/-- `MemWrite(a, 1, v)` (R63). -/
def memWrite (a : Nat) (v : Q) (s : State) : Except Fault State :=
  if a < s.cfg.memWords then .ok { s with mem := s.mem.write a v } else .error .dmemAbsent

/-! ## Delay lines (R120 to R122) -/

/-- The `1 + N + M` delay lines (R120). -/
inductive LineId where
  | pre
  | comb (i : Nat)
  | ap (j : Nat)
  deriving DecidableEq, Repr

/-- `BASE` of a line (R61). -/
def lineBase (c : Cfg) : LineId → Nat
  | .pre => 0
  | .comb i => c.combBase i
  | .ap j => c.apBase j

/-- `CAP` of a line (R120). -/
def lineCap (c : Cfg) : LineId → Nat
  | .pre => c.preCap
  | .comb i => (c.combs.map (·.cap)).getD i 0
  | .ap j => (c.aps.map (·.cap)).getD j 0

/-- `CUR` of a line: its cursor register (R23, R120). -/
def lineCursor (s : State) : LineId → Nat
  | .pre => s.pcur
  | .comb i => s.ccur.getD i 0
  | .ap j => s.acur.getD j 0

/-- Write a line's cursor register. -/
def setCursor (l : LineId) (v : Nat) (s : State) : State :=
  match l with
  | .pre => { s with pcur := v }
  | .comb i => { s with ccur := s.ccur.set i v }
  | .ap j => { s with acur := s.acur.set j v }

/-- `EA = BASE + ((CUR - k) mod CAP)`, the address DL.RD reads (R120, R121). -/
def readAddr (l : LineId) (k : Nat) (s : State) : Nat :=
  lineBase s.cfg l + (((lineCursor s l : Int) - (k : Int)) % (lineCap s.cfg l : Int)).toNat

/-- `EA = BASE + CUR`, the address DL.WR writes (R120, R122). -/
def writeAddr (l : LineId) (s : State) : Nat := lineBase s.cfg l + lineCursor s l

/-- DL.RD(L, k) (R121). -/
def dlRd (l : LineId) (k : Nat) (s : State) : Except Fault Q := memRead (readAddr l k s) s

/-- The cursor after a DL.WR: `(CUR + 1) mod CAP` (R122). -/
def nextCursor (l : LineId) (s : State) : Nat := (lineCursor s l + 1) % lineCap s.cfg l

/-- DL.WR(L, v) (R122). -/
def dlWr (l : LineId) (v : Q) (s : State) : Except Fault State :=
  match memWrite (writeAddr l s) v s with
  | .error f => .error f
  | .ok s1 => .ok (setCursor l (nextCursor l s) s1)

/-! ## The tap registers and the accumulator (R105 to R108) -/

/-- The `QA` tap registers (R21, R22). -/
inductive Tap where
  | lpz1
  | lpz2
  | hpz1
  | hpz2
  | dz (i : Nat)
  deriving DecidableEq, Repr

/-- Read a tap register. -/
def readTap (s : State) : Tap → QA
  | .lpz1 => s.lpz1
  | .lpz2 => s.lpz2
  | .hpz1 => s.hpz1
  | .hpz2 => s.hpz2
  | .dz i => s.dz.getD i 0

/-- Write a tap register. -/
def setTap (t : Tap) (v : QA) (s : State) : State :=
  match t with
  | .lpz1 => { s with lpz1 := v }
  | .lpz2 => { s with lpz2 := v }
  | .hpz1 => { s with hpz1 := v }
  | .hpz2 => { s with hpz2 := v }
  | .dz i => { s with dz := s.dz.set i v }

/-- Write the accumulator. -/
def setAcc (v : QA) (s : State) : State := { s with acc := v }

/-- ACC.CLR (R105). -/
def accClr (s : State) : State := setAcc 0 s

/-- ACC.LD(t) (R105). -/
def accLd (t : Tap) (s : State) : State := setAcc (readTap s t) s

/-- ACC.MAC(a, b) (R106); the sum never leaves the 72 bits in a well-formed configuration (R107; log 9). -/
def accMac (a b : Q) (s : State) : State := setAcc (BitVec.ofInt 72 (s.acc.toInt + a.toInt * b.toInt)) s

/-- ACC.MSU(a, b) (R106). -/
def accMsu (a b : Q) (s : State) : State := setAcc (BitVec.ofInt 72 (s.acc.toInt - a.toInt * b.toInt)) s

/-- ACC.ADDQ(v) (R106). -/
def accAddq (v : Q) (s : State) : State := setAcc (BitVec.ofInt 72 (s.acc.toInt + v.toInt * 2 ^ 24)) s

/-- ACC.OUT(k) (R108). -/
def accOut (k : Nat) (s : State) : Q := sat32 (rtz s.acc.toInt k)

/-- ACC.ST(t) (R108). -/
def accSt (t : Tap) (s : State) : State := setTap t s.acc s

/-- The accumulator takes a free value: R48 calls it unspecified after INIT (log 8). -/
def freeAcc (s : State) : State :=
  { s with acc := Config.freeAcc s.freeCount 0, freeCount := s.freeCount + 1 }

/-! ## Filters (R131, R132) -/

/-- IIR1(F, x) with `F = (co, z)`: the output and the state after (R131). -/
def iir1 (co : Coef1) (z : Tap) (x : Q) (s : State) : Q × State :=
  let s1 := accMac co.b0 x (accLd z s)
  let y := accOut 24 s1
  (y, accSt z (accMsu co.a1 y (accMac co.b1 x (accClr s1))))

/-- BIQ(F, x) with `F = (co, z1, z2)`: the output and the state after (R132). -/
def biq (co : Coef2) (z1 z2 : Tap) (x : Q) (s : State) : Q × State :=
  let s1 := accMac co.b0 x (accLd z1 s)
  let y := accOut 24 s1
  let s2 := accSt z1 (accMsu co.a1 y (accMac co.b1 x (accLd z2 s1)))
  (y, accSt z2 (accMsu co.a2 y (accMac co.b2 x (accClr s2))))

/-! ## Output stage (R161, R163) -/

/-- XFADE(x, w) (R161). -/
def xfade (x w : Q) (s : State) : Q × State :=
  let s1 := accMac s.wetw w (accMac s.dryw x (accClr s))
  (accOut 24 s1, s1)

/-- One product of SCLIP rounded to `Q`: `ACC.CLR; ACC.MAC(a, b); ACC.OUT(24)` (R163). -/
def roundedProduct (a b : Q) (s : State) : Q × State :=
  let s1 := accMac a b (accClr s)
  (accOut 24 s1, s1)

/-- SCLIP(m) (R163). -/
def sclip (m : Q) (s : State) : Q × State :=
  let u0 := roundedProduct s.cfg.scPre m s
  let u := BitVec.ofInt 32 (clamp u0.1.toInt (-oneRaw) oneRaw)
  let u2 := roundedProduct u u u0.2
  let u3 := roundedProduct u2.1 u u2.2
  let c3 := roundedProduct u3.1 third u3.2
  let sh := BitVec.ofInt 32 (u.toInt - c3.1.toInt)
  roundedProduct s.cfg.scPost sh c3.2

/-! ## Block latches (R144, R176) -/

/-- GSCHED: `FBG[i] <- GLUT[gidx(P_TIME)][i]` (R144). -/
def gschedule (s : State) : State := { s with fbg := gainRow s.cfg s.pTime }

/-- The latches of the block prologue: GSCHED, then `SENDG`, `WETW`, `DRYW` (R176). -/
def latchBlock (s : State) : State :=
  let s1 := gschedule s
  let w := wetWeight s1.pMix.toInt
  { s1 with sendg := sendGain s1.pDepth, wetw := w, dryw := dryWeight w }

/-! ## Sequencer, wires and ports -/

/-- The sequencer moves to a STEP code with `IDX` as given (R26, R27). -/
def goto (code : BitVec 5) (i : BitVec 6) (s : State) : State := { s with seq := code, idx := i }

/-- Replace the wires. -/
def setWires (w : Wires) (s : State) : State := { s with wires := w }

/-- `CMD_READY`: no command is under way (R43; log 14). -/
def State.cmdReady (s : State) : Bool := s.seq == Seq.idle

/-- `IN_READY`: the core is taking a frame of a RENDER (R42; log 14). -/
def State.inReady (s : State) : Bool := s.seq == Seq.send

/-- `respond(st, d)`: the one response of a command (R44, R170). -/
def respond (st : BitVec 4) (d : BitVec 32) (s : State) : State :=
  { s with rspStatus := st, rspData := d, rspValid := true, rspOut := s.rspOut ++ [⟨st, d⟩] }

/-- Present an output frame on `OUT_L`, `OUT_R` (R42, R177). -/
def giveFrame (f : Frame) (s : State) : State :=
  { s with outL := f.l, outR := f.r, outValid := true, frameOut := s.frameOut ++ [f] }

/-- `OUT_VALID` and `RSP_VALID` go back to 0 when the next step begins (R48; log 13). -/
def lowerStrobes (s : State) : State := { s with outValid := false, rspValid := false }

/-- What SETP, GETP and RENDER do first: while `MODE = UNINIT` respond `(ERR_UNINIT, 0)` and nothing else (R170, R196). -/
def whenReady (s : State) (act : State → State) : State :=
  match s.mode with
  | .uninit => respond Status.errUninit 0 s
  | .ready => act s

/-- GETP's response (R174, R90). -/
def answer (d : BitVec 32) (s : State) : State := respond Status.ok d s

/-! ## Engine initialisation, its failure, and hardware reset -/

/-- The engine state that a successful INIT leaves: the INIT column of R48 (R171). -/
def clearEngine (s : State) : State :=
  let w := wetWeight s.cfg.mixReset
  let s1 := { s with
    mem := s.mem.clear s.cfg.reqWords
    pcur := 0, ccur := List.replicate s.cfg.n 0, acur := List.replicate s.cfg.m 0
    lpz1 := 0, lpz2 := 0, hpz1 := 0, hpz2 := 0, dz := List.replicate s.cfg.n 0
    pTime := 0, pDepth := 0, pMix := BitVec.ofInt 11 s.cfg.mixReset }
  let s2 := gschedule s1
  freeAcc { s2 with
    sendg := 0, wetw := w, dryw := dryWeight w
    fcnt := 0, seq := Seq.idle, idx := 0, wires := Wires.zero }

/-- A free value of a cursor register of a line of capacity `cap` (R23). -/
def freeCursor (draw which cap : Nat) : Nat := Config.freeCursor draw which % 2 ^ cursorWidth cap

/-- Every register but `MODE`, `FCNT`, `STEP`, `IDX`, with the ports `OUT_L`, `OUT_R`, `RSP_STATUS`, `RSP_DATA`, and DMEM words
`0 .. words-1` take free values: what R48, R195 and R210 call unspecified. The strobes `OUT_VALID`, `RSP_VALID` are left to
the caller. The sequencer goes back to waiting (R25, R26, R27, R195; log 7, 15). -/
def scramble (words : Nat) (s : State) : State :=
  let d := s.freeCount
  { s with
    lpz1 := Config.freeAcc d 1, lpz2 := Config.freeAcc d 2, hpz1 := Config.freeAcc d 3, hpz2 := Config.freeAcc d 4
    dz := (List.range s.cfg.n).map (fun i => Config.freeAcc d (5 + i))
    pcur := freeCursor d 0 s.cfg.preCap
    ccur := (List.range s.cfg.n).map (fun i => freeCursor d (1 + i) (lineCap s.cfg (.comb i)))
    acur := (List.range s.cfg.m).map (fun j => freeCursor d (1 + s.cfg.n + j) (lineCap s.cfg (.ap j)))
    pTime := Config.freeParam d 0, pDepth := Config.freeParam d 1, pMix := Config.freeMix d
    fbg := (List.range s.cfg.n).map (fun i => Config.freeQ d (3 + i))
    sendg := Config.freeQ d 0, wetw := Config.freeQ d 1, dryw := Config.freeQ d 2
    acc := Config.freeAcc d 0
    mem := s.mem.scramble d words
    outL := Config.freePort d 0, outR := Config.freePort d 1
    rspStatus := Config.freeStatus d, rspData := Config.freePort d 2
    fcnt := 0, seq := Seq.idle, idx := 0, wires := Wires.zero
    freeCount := d + 1 }

/-- `raise ERR_x` of INIT, the core's one exception entry: `MODE <- UNINIT`, the response `(ERR_x, 0)`, every other
piece of state unspecified, DMEM words `0 .. REQ_WORDS - 1` (as many as exist) and the ports `OUT_L`, `OUT_R` among it (R195; log 7). There is no handler and
no return (R200). -/
def raiseFailure (st : BitVec 4) (s : State) : State :=
  respond st 0 { scramble (min s.cfg.memWords s.cfg.reqWords) s with mode := .uninit }

/-- `RST` asserted: the column `after RST` of R48, every other register, the ports `OUT_L`, `OUT_R`, `RSP_STATUS` and
`RSP_DATA` among them, and every DMEM word unspecified, so a free value; a command or frame in progress is abandoned
without a response (R210, X10; log 15). -/
def hardReset (s : State) : State :=
  lowerStrobes { scramble s.cfg.memWords s with mode := .uninit, rst := false }

/-- The outcome of an operation that may fault. -/
def settle : Except Fault State → Host.Outcome State Fault Refusal
  | .ok s => .next s
  | .error f => .fault f

end Sys2Proof.Machine
end

