-- ==== Sys2Proof/Machine/Commands.lean ====
section
/-! DEFINITION. The commands: INIT, SETP, GETP, RENDER and the reserved words (46_commands.md R170 to R175,
60_exceptions.md R190 to R197). Each is one step of the machine; RENDER with a non-zero count starts the schedule of
Machine/Schedule.lean, whose last EMIT gives its response. -/

namespace Sys2Proof.Machine

/-- The outcome of every command. -/
abbrev Result := Host.Outcome State Fault Refusal

/-- INIT fs, inch, outch (R171): the first failing check raises its failure (R194, R195), else the engine is cleared. -/
def execInit (inch outch : BitVec 2) (fs : BitVec 24) (s : State) : Result :=
  match initFailure s.cfg fs inch outch with
  | some st => .next (raiseFailure st s)
  | none => .next (respond Status.ok 0 { clearEngine s with mode := .ready })

/-- SETP TIME, raw (R173). -/
def execSetpTime (val : BitVec 24) (s : State) : Result :=
  .next (whenReady s fun s => respond Status.ok 0 { s with pTime := clampParam val })

/-- SETP DEPTH, raw (R173). -/
def execSetpDepth (val : BitVec 24) (s : State) : Result :=
  .next (whenReady s fun s => respond Status.ok 0 { s with pDepth := clampParam val })

/-- SETP MIX, raw (R173). -/
def execSetpMix (val : BitVec 24) (s : State) : Result :=
  .next (whenReady s fun s => respond Status.ok 0 { s with pMix := clampMix val })

/-- SETP with an unrecognised identifier: no register, status OK (R88(b), R173). -/
def execSetpUnknown (_id : BitVec 4) (_val : BitVec 24) (s : State) : Result :=
  .next (whenReady s fun s => respond Status.ok 0 s)

/-- GETP TIME (R174). -/
def execGetpTime (_ign : BitVec 24) (s : State) : Result :=
  .next (whenReady s fun s => answer (s.pTime.zeroExtend 32) s)

/-- GETP DEPTH (R174). -/
def execGetpDepth (_ign : BitVec 24) (s : State) : Result :=
  .next (whenReady s fun s => answer (s.pDepth.zeroExtend 32) s)

/-- GETP MIX: `sext_11(P_MIX)` (R174). -/
def execGetpMix (_ign : BitVec 24) (s : State) : Result :=
  .next (whenReady s fun s => answer (s.pMix.signExtend 32) s)

/-- GETP with an unrecognised identifier: the sentinel (R88(c), R174). -/
def execGetpUnknown (_id : BitVec 4) (_ign : BitVec 24) (s : State) : Result :=
  .next (whenReady s fun s => answer s.cfg.getpUnknown s)

/-- RENDER n (R175): nothing but the response for `n = 0`; else `FCNT <- n` and the sequencer starts at BLKPRO. -/
def execRender (_ign : BitVec 4) (nfr : BitVec 24) (s : State) : Result :=
  .next (whenReady s fun s =>
    if nfr = 0#24 then respond Status.ok 0 s
    else goto Seq.blkpro 0 { s with fcnt := nfr })

/-- A reserved word: `(ERR_ILLEGAL, 0)`, no state change, in either MODE (R88(a), R197). -/
def illegal (s : State) : State := respond Status.errIllegal 0 s

/-- `OP` = 0 (R197). -/
def execReservedOp0 (_rest : BitVec 28) (s : State) : Result := .next (illegal s)

/-- `OP` = 5 (R197). -/
def execReservedOp5 (_rest : BitVec 28) (s : State) : Result := .next (illegal s)

/-- `OP` = 6, 7 (R197). -/
def execReservedOp6_7 (_rest : BitVec 29) (s : State) : Result := .next (illegal s)

/-- `OP` = 8 .. 15 (R197). -/
def execReservedOp8_15 (_rest : BitVec 31) (s : State) : Result := .next (illegal s)

end Sys2Proof.Machine
end

