-- ==== Sys2Proof/Machine/Schedule.lean ====
section
/-! DEFINITION. The internal operations of a RENDER, one per STEP code (30_encoding.md R89). Each does what its rule
says and then moves the sequencer to the next position of the fixed schedule (46_commands.md R175 to R177, R178). Its
operands are the wires that an earlier operation of the same frame has set, and `IDX` (log 10). -/

namespace Sys2Proof.Machine

/-- IDLE: nothing, between commands (R26). -/
def execIdle (s : State) : Result := .next s

/-- BLKPRO: the block prologue, GSCHED inside it (R176; log 11). -/
def execBlkpro (s : State) : Result := .next (goto Seq.send 0 (latchBlock s))

/-- GSCHED at its own STEP code: the lookup; the sequencer goes back to the prologue it stands inside (R144; log 11). -/
def execGsched (s : State) : Result := .next (goto Seq.blkpro 0 (gschedule s))

/-- SEND: take one input frame and scale its mean by the send level (R160, R175). With no frame offered the core waits
where it is (R175, R217; log 12). -/
def execSend (s : State) : Result :=
  match s.frameIn with
  | [] => .next s
  | f :: rest =>
    let s1 := accMac f.r s.sendg (accMac f.l s.sendg (accClr s))
    .next (goto Seq.biqLp 0
      (setWires { s.wires with xL := f.l, xR := f.r, s := accOut 25 s1 } { s1 with frameIn := rest }))

/-- BIQ.LP: the input lowpass (R132, R133). -/
def execBiqLp (s : State) : Result :=
  let y := biq s.cfg.lp .lpz1 .lpz2 s.wires.s s
  .next (goto Seq.biqHp 0 (setWires { s.wires with t1 := y.1 } y.2))

/-- BIQ.HP: the input highpass (R132, R133). -/
def execBiqHp (s : State) : Result :=
  let y := biq s.cfg.hp .hpz1 .hpz2 s.wires.t1 s
  .next (goto Seq.pdly 0 (setWires { s.wires with t2 := y.1 } y.2))

/-- PDLY: write, then read at `PRE_D` (R123). -/
def execPdly (s : State) : Result :=
  match dlWr .pre s.wires.t2 s with
  | .error f => .fault f
  | .ok s1 =>
    match dlRd .pre s.cfg.preD s1 with
    | .error f => .fault f
    | .ok p => .next (goto Seq.comb 0 (setWires { s.wires with p := p, r := [] } s1))

/-- The registers and constants of comb line `i` exist (log 6). -/
abbrev hasComb (s : State) (i : Nat) : Prop :=
  i < s.cfg.n ∧ i < s.ccur.length ∧ i < s.dz.length ∧ i < s.fbg.length

/-- The constants of comb line `i` (R140). -/
def combCfg (c : Cfg) (i : Nat) : CombCfg := c.combs.getD i ⟨0, 0, ⟨0, 0, 0⟩⟩

/-- The value COMB writes into its line: `sat32(rtz(p*2^24 + d*FBG[i], 24))`, through the accumulator (R141). -/
def combMix (p d g : Q) (s : State) : Q × State :=
  let s1 := accMac d g (accAddq p (accClr s))
  (accOut 24 s1, s1)

/-- After line `i` of `count`: the same code with the next index, or the following code (R27, R142, R152). -/
def nextLine (here after : BitVec 5) (count : Nat) (s : State) : State :=
  if s.idx.toNat + 1 < count then goto here (s.idx + 1) s else goto after 0 s

/-- COMB: one comb line, `i = IDX` (R141, R142). -/
def execComb (s : State) : Result :=
  let i := s.idx.toNat
  if hasComb s i then
    match dlRd (.comb i) (combCfg s.cfg i).delay s with
    | .error f => .fault f
    | .ok r =>
      let d := iir1 (combCfg s.cfg i).damp (.dz i) r s
      let w := combMix s.wires.p d.1 (s.fbg.getD i 0) d.2
      match dlWr (.comb i) w.1 w.2 with
      | .error f => .fault f
      | .ok s3 => .next (nextLine Seq.comb Seq.cnorm s.cfg.n (setWires { s.wires with r := s.wires.r ++ [r] } s3))
  else .fault .noSuchLine

/-- The accumulation of CNORM: `ACC.MAC(r[i], COMB_NORM)` for each line in ascending order (R143). -/
def sumLines (norm : Q) : List Q → State → State
  | [], s => s
  | r :: rs, s => sumLines norm rs (accMac r norm s)

/-- CNORM (R143). -/
def execCnorm (s : State) : Result :=
  let s1 := sumLines s.cfg.combNorm s.wires.r (accClr s)
  .next (goto Seq.ap 0 (setWires { s.wires with v := accOut 24 s1 } s1))

/-- The registers and constants of all-pass line `j` exist (log 6). -/
abbrev hasAp (s : State) (j : Nat) : Prop := j < s.cfg.m ∧ j < s.acur.length

/-- The constants of all-pass line `j` (R150). -/
def apCfg (c : Cfg) (j : Nat) : ApCfg := c.aps.getD j ⟨0, 0, 0⟩

/-- The output of AP: `sat32(rtz(del*2^24 - AP_G[j]*v, 24))`, through the accumulator (R151). -/
def apOut (del g v : Q) (s : State) : Q × State :=
  let s1 := accMsu g v (accAddq del (accClr s))
  (accOut 24 s1, s1)

/-- The value AP writes into its line: `sat32(rtz(v*2^24 + AP_G[j]*o, 24))`, through the accumulator (R151). -/
def apBack (v g o : Q) (s : State) : Q × State :=
  let s1 := accMac g o (accAddq v (accClr s))
  (accOut 24 s1, s1)

/-- AP: one all-pass line, `j = IDX` (R151, R152). -/
def execAp (s : State) : Result :=
  let j := s.idx.toNat
  if hasAp s j then
    match dlRd (.ap j) (apCfg s.cfg j).delay s with
    | .error f => .fault f
    | .ok del =>
      let o := apOut del (apCfg s.cfg j).gain s.wires.v s
      let w := apBack s.wires.v (apCfg s.cfg j).gain o.1 o.2
      match dlWr (.ap j) w.1 w.2 with
      | .error f => .fault f
      | .ok s3 => .next (nextLine Seq.ap Seq.xfadeL s.cfg.m (setWires { s.wires with v := o.1 } s3))
  else .fault .noSuchLine

/-- XFADE.L (R161). -/
def execXfadeL (s : State) : Result :=
  let m := xfade s.wires.xL s.wires.v s
  .next (goto Seq.sclipL 0 (setWires { s.wires with mL := m.1 } m.2))

/-- SCLIP.L (R163). -/
def execSclipL (s : State) : Result :=
  let y := sclip s.wires.mL s
  .next (goto Seq.xfadeR 0 (setWires { s.wires with yL := y.1 } y.2))

/-- XFADE.R (R161). -/
def execXfadeR (s : State) : Result :=
  let m := xfade s.wires.xR s.wires.v s
  .next (goto Seq.sclipR 0 (setWires { s.wires with mR := m.1 } m.2))

/-- SCLIP.R (R163). -/
def execSclipR (s : State) : Result :=
  let y := sclip s.wires.mR s
  .next (goto Seq.emit 0 (setWires { s.wires with yR := y.1 } y.2))

/-- EMIT: present the frame and decrement `FCNT` (R177); the loop of R175 goes on at SEND while frames are left, else the
RENDER responds and the sequencer is idle (log 17). -/
def execEmit (s : State) : Result :=
  let s1 := giveFrame ⟨s.wires.yL, s.wires.yR⟩ { s with fcnt := s.fcnt - 1 }
  if s.fcnt - 1 = 0#24 then .next (respond Status.ok 0 (goto Seq.idle 0 s1))
  else .next (goto Seq.send 0 s1)

end Sys2Proof.Machine
end

