-- ==== Sys2Proof/Machine/Dispatch.lean ====
section
/-! DEFINITION. One arm per constructor of Instr, each one direct call of its meaning. -/

namespace Sys2Proof.Machine

/-- What an instruction does. -/
def exec (i : Instr) (s : State) : Host.Outcome State Fault Refusal :=
  match i with
  | .init inch outch fs => Sys2Proof.Machine.execInit inch outch fs s
  | .setpTime val => Sys2Proof.Machine.execSetpTime val s
  | .setpDepth val => Sys2Proof.Machine.execSetpDepth val s
  | .setpMix val => Sys2Proof.Machine.execSetpMix val s
  | .setpUnknown id val => Sys2Proof.Machine.execSetpUnknown id val s
  | .getpTime ign => Sys2Proof.Machine.execGetpTime ign s
  | .getpDepth ign => Sys2Proof.Machine.execGetpDepth ign s
  | .getpMix ign => Sys2Proof.Machine.execGetpMix ign s
  | .getpUnknown id ign => Sys2Proof.Machine.execGetpUnknown id ign s
  | .render ign nfr => Sys2Proof.Machine.execRender ign nfr s
  | .reservedOp0 rest => Sys2Proof.Machine.execReservedOp0 rest s
  | .reservedOp5 rest => Sys2Proof.Machine.execReservedOp5 rest s
  | .reservedOp6_7 rest => Sys2Proof.Machine.execReservedOp6_7 rest s
  | .reservedOp8_15 rest => Sys2Proof.Machine.execReservedOp8_15 rest s
  | .idle => Sys2Proof.Machine.execIdle s
  | .blkpro => Sys2Proof.Machine.execBlkpro s
  | .gsched => Sys2Proof.Machine.execGsched s
  | .send => Sys2Proof.Machine.execSend s
  | .biqLp => Sys2Proof.Machine.execBiqLp s
  | .biqHp => Sys2Proof.Machine.execBiqHp s
  | .pdly => Sys2Proof.Machine.execPdly s
  | .comb => Sys2Proof.Machine.execComb s
  | .cnorm => Sys2Proof.Machine.execCnorm s
  | .ap => Sys2Proof.Machine.execAp s
  | .xfadeL => Sys2Proof.Machine.execXfadeL s
  | .sclipL => Sys2Proof.Machine.execSclipL s
  | .xfadeR => Sys2Proof.Machine.execXfadeR s
  | .sclipR => Sys2Proof.Machine.execSclipR s
  | .emit => Sys2Proof.Machine.execEmit s

end Sys2Proof.Machine
end

