-- ==== Sys2Proof/Machine/Fetch.lean ====
section
/-! DEFINITION. Where the next instruction comes from. There is no instruction memory and no program counter
(20_memory.md R72, 46_commands.md R178): between commands (`STEP` = IDLE) the core takes the next command word the host
offers (10_state.md R43, R170), and inside a RENDER the `STEP` register says which operation runs (30_encoding.md R89). -/

namespace Sys2Proof.Machine

/-- The code of the next instruction: the offered command word when the core is ready for one (R43), else the STEP code,
which is IDLE when nothing is offered. -/
def fetchCode (s : State) : Code :=
  if s.cmdReady then
    match s.cmdIn with
    | [] => .seq s.seq
    | w :: _ => .cmd w
  else .seq s.seq

/-- The state the fetched instruction runs in: the strobes of the step before are down (log 13), and a command word that
is accepted is taken from the port (R43). -/
def accept (s : State) : State :=
  if s.cmdReady then { lowerStrobes s with cmdIn := s.cmdIn.tail } else lowerStrobes s

/-- Offer a word at the command port of an idle core out of reset, in front of whatever the host offers (log 16). -/
def placeCommand (w : CmdWord) (s : State) : State := { s with rst := false, seq := Seq.idle, cmdIn := w :: s.cmdIn }

/-- Put a code into the STEP register; for the code IDLE the host offers no command, or that command would run (log 16). -/
def placeStep (c : BitVec 5) (s : State) : State :=
  if c = Seq.idle then { s with rst := false, seq := c, cmdIn := [] } else { s with rst := false, seq := c }

end Sys2Proof.Machine
end

