-- ==== Sys2Proof/Machine/Step.lean ====
section
/-! DEFINITION. One step: hardware reset if the host asserts it, else the next command or the next operation of the
schedule (46_commands.md R170, R175 to R178). -/

namespace Sys2Proof.Machine

/-- One step of the machine. -/
def step (s : State) : Host.Outcome State Fault Refusal :=
  if s.cfg.WF then
    if s.rst then .next (hardReset s)
    else
      match decode (fetchCode s) with
      | .ok i => exec i (accept s)
      | .error _ => .refused .unusedStep
  else .refused .illFormedConfig

/-- Place one instruction where the next step fetches it: a command row (32 bits) on the command port, a STEP row (one
byte) in the STEP register (log 16). -/
def State.withFetchWord (s : State) (nbits w : Nat) : State :=
  if nbits ≤ 8 then placeStep (BitVec.ofNat 5 w) s else placeCommand (BitVec.ofNat 32 w) s

end Sys2Proof.Machine
end

