-- ==== Sys2Proof/Safety.lean ====
section
/-! DEFINITION. What counts as a good state, in the terms the claims use: the invariant of the engine while it is READY
(10_state.md R23, R31 to R34, 40_fixed_point.md R107), the invariant of every reachable state (R24 to R27), the silent
datapath of 70_reset_and_hazards.md R214, and the length of one frame's schedule (46_commands.md R177). -/

namespace Sys2Proof.Machine

/-- The cursor of a line is an index into its region (R23, R120). -/
abbrev State.cursorOk (s : State) (l : LineId) : Prop := lineCursor s l < lineCap s.cfg l

/-- The line is one of the `1 + N + M` lines, with its cursor register (R120). -/
def State.hasLine (s : State) : LineId → Prop
  | .pre => True
  | .comb i => i < s.cfg.n ∧ i < s.ccur.length
  | .ap j => j < s.cfg.m ∧ j < s.acur.length

/-- `|t| <= 2^k` for a tap register. -/
abbrev QA.within (t : QA) (k : Nat) : Prop := -(2 ^ k) ≤ t.toInt ∧ t.toInt ≤ 2 ^ k

/-- What holds of the engine whenever `MODE = READY`. -/
structure State.EngineInv (s : State) : Prop where
  /-- INIT succeeded (R193) -/
  storage : s.cfg.reqWords ≤ s.cfg.memWords
  /-- R23 -/
  preCursor : s.cursorOk .pre
  /-- R23 -/
  combCursors : ∀ i, i < s.cfg.n → s.cursorOk (.comb i)
  /-- R23 -/
  apCursors : ∀ j, j < s.cfg.m → s.cursorOk (.ap j)
  /-- R31 -/
  mix : -1000 ≤ s.pMix.toInt ∧ s.pMix.toInt ≤ 1000
  /-- R32, R145 -/
  gains : ∀ i, i < s.cfg.n → 0 ≤ (s.fbg.getD i 0).toInt ∧ (s.fbg.getD i 0).toInt < oneRaw
  /-- R33 -/
  sendGain : 0 ≤ s.sendg.toInt ∧ s.sendg.toInt ≤ 1023 * 2 ^ 14
  /-- R34 -/
  wet : 0 ≤ s.wetw.toInt ∧ s.wetw.toInt ≤ oneRaw
  /-- R34 -/
  dry : s.dryw.toInt = oneRaw - s.wetw.toInt
  /-- R107 -/
  lpTaps : QA.within s.lpz1 64 ∧ QA.within s.lpz2 63
  /-- R107 -/
  hpTaps : QA.within s.hpz1 64 ∧ QA.within s.hpz2 63
  /-- R107 -/
  dzTaps : ∀ i, i < s.cfg.n → QA.within (s.dz.getD i 0) 63

/-- What holds of every state that a run reaches. -/
structure State.Inv (s : State) : Prop where
  /-- R8 -/
  config : s.cfg.WF
  /-- one entry per line (R22, R23, R32) -/
  lengths : s.dz.length = s.cfg.n ∧ s.ccur.length = s.cfg.n ∧ s.fbg.length = s.cfg.n ∧ s.acur.length = s.cfg.m
  /-- the memory is in canonical form and lists only words that exist (R60) -/
  memory : s.mem.wf = true ∧ ∀ c ∈ s.mem, c.1 < s.cfg.memWords
  /-- between commands (R25, R26) -/
  idle : s.seq = Seq.idle → s.fcnt = 0
  /-- inside a RENDER (R170, R175, R89) -/
  busy : s.seq ≠ Seq.idle → s.mode = .ready ∧ s.fcnt ≠ 0 ∧ s.seq.toNat ≤ 14
  /-- COMB works on line `IDX`, and one result per earlier line is held (R27, R142) -/
  combIdx : s.seq = Seq.comb → s.idx.toNat < s.cfg.n ∧ s.wires.r.length = s.idx.toNat
  /-- CNORM has one result per line (R142, R143) -/
  cnormResults : s.seq = Seq.cnorm → s.wires.r.length = s.cfg.n
  /-- AP works on line `IDX` (R27) -/
  apIdx : s.seq = Seq.ap → s.idx.toNat < s.cfg.m
  /-- `IDX` is otherwise 0 (R27) -/
  otherIdx : s.seq ≠ Seq.comb → s.seq ≠ Seq.ap → s.idx = 0
  /-- the READY engine -/
  engine : s.mode = .ready → s.EngineInv

/-- The silent datapath of R214: all taps and all DMEM words `0 .. REQ_WORDS-1` are 0, cursors may have any value. -/
structure State.Silent (s : State) : Prop where
  lpTaps : s.lpz1 = 0 ∧ s.lpz2 = 0
  hpTaps : s.hpz1 = 0 ∧ s.hpz2 = 0
  dzTaps : ∀ i, i < s.cfg.n → s.dz.getD i 0 = 0
  words : ∀ a, a < s.cfg.reqWords → s.mem.read a = 0

/-- `t` is `s` but for the response port: a command that changes nothing else gave `(st, d)` (R44). The strobe and the
history of responses are the model's own (log 13) and are left to the claim about them. -/
def OnlyResponds (s t : State) (st : BitVec 4) (d : BitVec 32) : Prop :=
  t.rspStatus = st ∧ t.rspData = d ∧
    t = { s with rspStatus := t.rspStatus, rspData := t.rspData, rspValid := t.rspValid, rspOut := t.rspOut }

/-- Every word of DMEM reads as before. -/
def KeepsMemory (s t : State) : Prop := ∀ a, t.mem.read a = s.mem.read a

/-- Every word of DMEM but the one at `a` reads as before, and that one reads as `v`. -/
def StoresWord (s t : State) (a : Nat) (v : Q) : Prop :=
  t.mem.read a = v ∧ ∀ b, b ≠ a → t.mem.read b = s.mem.read b

/-- When an instruction gives the one response of a command (R44, R170, R175): every command but a RENDER that starts its
schedule, and the EMIT of the last frame of one. -/
def givesResponse (s : State) : Instr → Prop
  | .render _ n => s.mode = .uninit ∨ n = 0
  | .emit => s.fcnt = 1
  | .init _ _ _ => True
  | .setpTime _ => True
  | .setpDepth _ => True
  | .setpMix _ => True
  | .setpUnknown _ _ => True
  | .getpTime _ => True
  | .getpDepth _ => True
  | .getpMix _ => True
  | .getpUnknown _ _ => True
  | .reservedOp0 _ => True
  | .reservedOp5 _ => True
  | .reservedOp6_7 _ => True
  | .reservedOp8_15 _ => True
  | .idle => False
  | .blkpro => False
  | .gsched => False
  | .send => False
  | .biqLp => False
  | .biqHp => False
  | .pdly => False
  | .comb => False
  | .cnorm => False
  | .ap => False
  | .xfadeL => False
  | .sclipL => False
  | .xfadeR => False
  | .sclipR => False

/-- Successive DL.WR of a list of values into one line, the first value first (R124). -/
def dlWrAll (l : LineId) : List Q → State → Except Fault State
  | [], s => .ok s
  | v :: vs, s =>
    match dlWr l v s with
    | .error f => .error f
    | .ok s1 => dlWrAll l vs s1

/-- The state in front of the `k`-th call of BIQ on the input sequence `x` (R132). -/
def biqState (co : Coef2) (z1 z2 : Tap) (x : Nat → Q) (s : State) : Nat → State
  | 0 => s
  | k + 1 => (biq co z1 z2 (x k) (biqState co z1 z2 x s k)).2

/-- The output `y[k]` of BIQ on the input sequence `x`. -/
def biqOutput (co : Coef2) (z1 z2 : Tap) (x : Nat → Q) (s : State) (k : Nat) : Q :=
  (biq co z1 z2 (x k) (biqState co z1 z2 x s k)).1

/-- The state in front of the `k`-th call of IIR1 on the input sequence `x` (R131). -/
def iir1State (co : Coef1) (z : Tap) (x : Nat → Q) (s : State) : Nat → State
  | 0 => s
  | k + 1 => (iir1 co z (x k) (iir1State co z x s k)).2

/-- The output `y[k]` of IIR1 on the input sequence `x`. -/
def iir1Output (co : Coef1) (z : Tap) (x : Nat → Q) (s : State) (k : Nat) : Q :=
  (iir1 co z (x k) (iir1State co z x s k)).1

/-- `f[k - d]`, and 0 before the beginning of the sequence (R131, R132: `all earlier samples 0`). -/
def past (f : Nat → Q) (k d : Nat) : Int := if d ≤ k then (f (k - d)).toInt else 0

/-- How many steps one frame takes, from SEND to EMIT: `N` COMB, `M` AP and ten others (R177). -/
def frameSteps (c : Cfg) : Nat := 10 + c.n + c.m

/-- SCLIP as a function on integers: R163 with every intermediate value exact but for the roundings it names. -/
def softClip (c : Cfg) (m : Q) : Q :=
  let u := clamp (sat32 (rtz (c.scPre.toInt * m.toInt) 24)).toInt (-oneRaw) oneRaw
  let u2 := rtz (u * u) 24
  let u3 := rtz (u2 * u) 24
  let c3 := rtz (u3 * 5592405) 24
  sat32 (rtz (c.scPost.toInt * (u - c3)) 24)

end Sys2Proof.Machine
end

