-- ==== Sys2Proof/Certificates/Slice0/Obligations.lean ====
section
/-! DEFINITION. The statements for the provers. Each docstring names the rules it formalises; where a clause rests on a
field or a behaviour of the model's own, it names the log entry. A frame is written `t = { s with … }`: every field that
is not named there is unchanged. -/

open Sys2Proof Sys2Proof.Machine

/-! ## Encoding -/

/-- Every well-formed instruction, with every operand value its encoding admits, decodes from its own code
(R80 to R86, R89). -/
def Obligations.DecodeUndoesEncode : Prop :=
  ∀ i : Instr, i.wf = true → decode (encode i) = .ok i

/-- Every code that decodes, command word or STEP code, is the code of a well-formed instruction, and of that one alone: no
bit of a word is lost (R80 to R89; that ignored bits are operands is the model's choice, log 19). -/
def Obligations.EncodeUndoesDecode : Prop :=
  ∀ (c : Code) (i : Instr), decode c = .ok i → i.wf = true ∧ encode i = c

/-- Every command word decodes to the row that the opcode table's first-match rule gives, and the row depends on `OP` and
`A` alone (R86, R87). -/
def Obligations.DecodeTakesFirstTableRow : Prop :=
  (∀ w : CmdWord, tableRow w = some (decodeCmd w).mnemonic) ∧
  (∀ w w' : CmdWord, fieldOp w = fieldOp w' → fieldA w = fieldA w' → (decodeCmd w).mnemonic = (decodeCmd w').mnemonic) ∧
  (∀ w w' : CmdWord, fieldOp w = fieldOp w' → fieldOp w ≠ 2#4 → fieldOp w ≠ 3#4 →
    (decodeCmd w).mnemonic = (decodeCmd w').mnemonic)

/-- The 22 words of vector group V-ENC (95_test_vectors.md, from R81 to R88) decode to the commands they stand for, and so do
two STEP codes of R89's table. -/
def Obligations.VectorWordsDecode : Prop :=
  decodeCmd 0x1A00BB80#32 = .init 2 2 48000 ∧
  decodeCmd 0x1A00AC44#32 = .init 2 2 44100 ∧
  decodeCmd 0x1600BB80#32 = .init 1 2 48000 ∧
  decodeCmd 0x1E00AC44#32 = .init 3 2 44100 ∧
  decodeCmd 0x20000200#32 = .setpTime 512 ∧
  decodeCmd 0x20001388#32 = .setpTime 5000 ∧
  decodeCmd 0x210003FF#32 = .setpDepth 1023 ∧
  decodeCmd 0x21FFFFFD#32 = .setpDepth (BitVec.ofInt 24 (-3)) ∧
  decodeCmd 0x220003E8#32 = .setpMix 1000 ∧
  decodeCmd 0x22FFFC18#32 = .setpMix (BitVec.ofInt 24 (-1000)) ∧
  decodeCmd 0x22FFEC78#32 = .setpMix (BitVec.ofInt 24 (-5000)) ∧
  decodeCmd 0x2700007B#32 = .setpUnknown 7 123 ∧
  decodeCmd 0x30000000#32 = .getpTime 0 ∧
  decodeCmd 0x31000000#32 = .getpDepth 0 ∧
  decodeCmd 0x32000000#32 = .getpMix 0 ∧
  decodeCmd 0x37000000#32 = .getpUnknown 7 0 ∧
  decodeCmd 0x40000000#32 = .render 0 0 ∧
  decodeCmd 0x4000000A#32 = .render 0 10 ∧
  decodeCmd 0x40FFFFFF#32 = .render 0 16777215 ∧
  decodeCmd 0x00000000#32 = .reservedOp0 0 ∧
  decodeCmd 0x50000000#32 = .reservedOp5 0 ∧
  decodeCmd 0xFFFFFFFF#32 = .reservedOp8_15 0x7FFFFFFF ∧
  decode (.seq 0b00110#5) = .ok .pdly ∧
  decode (.seq 0b01110#5) = .ok .emit

/-- The 15 STEP codes 00000 .. 01110 stand for operations, the unused codes 01111 .. 11111 for none (R89). -/
def Obligations.UnusedStepCodesHaveNoOperation : Prop :=
  ∀ c : BitVec 5, (c.toNat ≤ 14 → ∃ i, decode (.seq c) = .ok i) ∧
    (14 < c.toNat → decode (.seq c) = .error (.unusedStepCode c))

/-! ## Arithmetic -/

/-- `sat32` cuts every integer to the rails and changes no value between them (R101). -/
def Obligations.SaturationCutsToRails : Prop :=
  ∀ v : Int,
    (v < -(2 ^ 31) → (sat32 v).toInt = -(2 ^ 31)) ∧
    (2 ^ 31 - 1 < v → (sat32 v).toInt = 2 ^ 31 - 1) ∧
    (-(2 ^ 31) ≤ v → v ≤ 2 ^ 31 - 1 → (sat32 v).toInt = v)

/-- `rtz` is division by `2^k` rounded toward zero, with the laws (a) to (f) of R102 and its counterexample to the
unconditional law (f). -/
def Obligations.RoundingTowardZeroLaws : Prop :=
  (∀ (a : Int) (k : Nat), rtz a k = a.tdiv (2 ^ k)) ∧
  (∀ (a : Int) (k : Nat), |rtz a k| * 2 ^ k ≤ |a|) ∧
  (∀ (a : Int) (k : Nat), rtz (-a) k = -rtz a k) ∧
  (∀ (a : Int) (k : Nat), rtz (a * 2 ^ k) k = a) ∧
  (∀ (a : Int) (k : Nat), rtz a k = 0 ↔ |a| < 2 ^ k) ∧
  (∀ (a b : Int) (k : Nat), a ≤ b → rtz a k ≤ rtz b k) ∧
  (∀ (a b : Int) (k : Nat),
    ((0 ≤ a ∧ 0 ≤ a + b * 2 ^ k) ∨ (a ≤ 0 ∧ a + b * 2 ^ k ≤ 0) ∨ (2 ^ k : Int) ∣ a) →
    rtz (a + b * 2 ^ k) k = rtz a k + b) ∧
  rtz (-(2 ^ 23) + 2 ^ 24) 24 ≠ rtz (-(2 ^ 23)) 24 + 1

/-- The corner cases of the `Q` product (R103): `ONE` is the identity, zero absorbs, small products vanish, the product of
the negative rails saturates, and the product is odd where nothing clips at `QMIN`. -/
def Obligations.SampleProductLaws : Prop :=
  (∀ a : Q, qmul a 16777216#32 = a) ∧
  (∀ a : Q, qmul a 0#32 = 0#32) ∧
  (∀ a b : Q, |a.toInt * b.toInt| < 2 ^ 24 → qmul a b = 0#32) ∧
  qmul (BitVec.ofInt 32 qMin) (BitVec.ofInt 32 qMin) = BitVec.ofInt 32 qMax ∧
  (∀ a b : Q, a.toInt ≠ qMin → (qmul a b).toInt ≠ qMin → (qmul (-a) b).toInt ≠ qMin →
    (qmul (-a) b).toInt = -(qmul a b).toInt)

/-- The accumulator operations do what R105, R106 and R108 say of them, exactly, as long as the sum is one that a 72-bit
register holds (R107 shows that it always is), and each changes nothing but its own register. -/
def Obligations.AccumulatorOperationsAreExact : Prop :=
  ∀ (s : State) (a b v : Q) (t : Tap) (k : Nat),
    accClr s = { s with acc := 0 } ∧
    accLd t s = { s with acc := readTap s t } ∧
    (-(2 ^ 71) ≤ s.acc.toInt + a.toInt * b.toInt → s.acc.toInt + a.toInt * b.toInt < 2 ^ 71 →
      (accMac a b s).acc.toInt = s.acc.toInt + a.toInt * b.toInt) ∧
    (-(2 ^ 71) ≤ s.acc.toInt - a.toInt * b.toInt → s.acc.toInt - a.toInt * b.toInt < 2 ^ 71 →
      (accMsu a b s).acc.toInt = s.acc.toInt - a.toInt * b.toInt) ∧
    (-(2 ^ 71) ≤ s.acc.toInt + v.toInt * 2 ^ 24 → s.acc.toInt + v.toInt * 2 ^ 24 < 2 ^ 71 →
      (accAddq v s).acc.toInt = s.acc.toInt + v.toInt * 2 ^ 24) ∧
    accMac a b s = { s with acc := (accMac a b s).acc } ∧
    accMsu a b s = { s with acc := (accMsu a b s).acc } ∧
    accAddq v s = { s with acc := (accAddq v s).acc } ∧
    accOut k s = sat32 (rtz s.acc.toInt k) ∧
    (accSt .lpz1 s = { s with lpz1 := s.acc } ∧ accSt .lpz2 s = { s with lpz2 := s.acc } ∧
      accSt .hpz1 s = { s with hpz1 := s.acc } ∧ accSt .hpz2 s = { s with hpz2 := s.acc } ∧
      ∀ i, accSt (.dz i) s = { s with dz := s.dz.set i s.acc })

/-- The outputs of a two-pole filter started on zero taps are those of the second-order difference equation, the products
taken as exact integers and each output rounded once (R132, its law). -/
def Obligations.BiquadMeetsDifferenceEquation : Prop :=
  ∀ (co : Coef2) (x : Nat → Q) (s : State) (z1 z2 : Tap),
    (z1 = .lpz1 ∧ z2 = .lpz2 ∨ z1 = .hpz1 ∧ z2 = .hpz2) → readTap s z1 = 0 → readTap s z2 = 0 →
    ∀ k, biqOutput co z1 z2 x s k =
      sat32 (rtz (co.b0.toInt * past x k 0 + co.b1.toInt * past x k 1 + co.b2.toInt * past x k 2
        - co.a1.toInt * past (biqOutput co z1 z2 x s) k 1 - co.a2.toInt * past (biqOutput co z1 z2 x s) k 2) 24)

/-- The same for the one-pole filter of a comb line (R131, its law). -/
def Obligations.OnePoleMeetsDifferenceEquation : Prop :=
  ∀ (co : Coef1) (x : Nat → Q) (s : State) (i : Nat), i < s.dz.length → readTap s (.dz i) = 0 →
    ∀ k, iir1Output co (.dz i) x s k =
      sat32 (rtz (co.b0.toInt * past x k 0 + co.b1.toInt * past x k 1
        - co.a1.toInt * past (iir1Output co (.dz i) x s) k 1) 24)

/-! ## Delay lines -/

/-- The region map (R61): the lines stand one after the other from address 0, pre-delay, combs, all-passes, no two regions share
an address, and a line whose cursor is legal reads and writes inside its own region, so below `REQ_WORDS`. -/
def Obligations.LineRegionsTileTheMemory : Prop :=
  ∀ c : Cfg,
    lineBase c .pre = 0 ∧ lineBase c (.comb 0) = lineCap c .pre ∧
    (∀ i, i + 1 < c.n → lineBase c (.comb (i + 1)) = lineBase c (.comb i) + lineCap c (.comb i)) ∧
    (∀ i, i + 1 = c.n → lineBase c (.ap 0) = lineBase c (.comb i) + lineCap c (.comb i)) ∧
    (∀ j, j + 1 < c.m → lineBase c (.ap (j + 1)) = lineBase c (.ap j) + lineCap c (.ap j)) ∧
    (∀ j, j + 1 = c.m → c.reqWords = lineBase c (.ap j) + lineCap c (.ap j)) ∧
    (∀ (l l' : LineId) (a : Nat), l ≠ l' → lineBase c l ≤ a → a < lineBase c l + lineCap c l →
      a < lineBase c l' ∨ lineBase c l' + lineCap c l' ≤ a) ∧
    (∀ (s : State) (l : LineId) (k : Nat), s.cfg = c → s.cursorOk l →
      (lineBase c l ≤ readAddr l k s ∧ readAddr l k s < lineBase c l + lineCap c l ∧ readAddr l k s < c.reqWords) ∧
      (lineBase c l ≤ writeAddr l s ∧ writeAddr l s < lineBase c l + lineCap c l ∧ writeAddr l s < c.reqWords))

/-- DL.RD reads the word at `BASE + ((CUR - k) mod CAP)` and writes no state (it answers a value, no state) (R121). -/
def Obligations.DelayReadAddressesBehindCursor : Prop :=
  ∀ (l : LineId) (k : Nat) (s : State), 1 ≤ k → k ≤ lineCap s.cfg l → s.cursorOk l →
    lineBase s.cfg l + lineCap s.cfg l ≤ s.cfg.memWords →
    dlRd l k s = .ok (s.mem.read
      (lineBase s.cfg l + if k ≤ lineCursor s l then lineCursor s l - k else lineCursor s l + lineCap s.cfg l - k))

/-- DL.WR stores the value at the cursor, advances the cursor modulo the capacity, and changes nothing else (R122). -/
def Obligations.DelayWriteStoresAndAdvances : Prop :=
  ∀ (l : LineId) (v : Q) (s : State), s.hasLine l → s.mem.wf = true → s.cursorOk l →
    lineBase s.cfg l + lineCap s.cfg l ≤ s.cfg.memWords →
    ∃ t, dlWr l v s = .ok t ∧ StoresWord s t (lineBase s.cfg l + lineCursor s l) v ∧
      lineCursor t l = (lineCursor s l + 1) % lineCap s.cfg l ∧ t.mem.wf = true ∧
      (∀ l', l' ≠ l → lineCursor t l' = lineCursor s l') ∧
      t = { s with mem := t.mem, pcur := t.pcur, ccur := t.ccur, acur := t.acur }

/-- The delay law (R124): after the values `ws` have been written to a line that held zeros, DL.RD at offset `k` gives the
value written `k - 1` writes before the last one, and 0 where there is none. -/
def Obligations.DelayLaw : Prop :=
  ∀ (l : LineId) (s : State) (ws : List Q), s.hasLine l → s.mem.wf = true → s.cursorOk l →
    lineBase s.cfg l + lineCap s.cfg l ≤ s.cfg.memWords →
    (∀ a, lineBase s.cfg l ≤ a → a < lineBase s.cfg l + lineCap s.cfg l → s.mem.read a = 0) →
    ∃ t, dlWrAll l ws s = .ok t ∧
      ∀ k, 1 ≤ k → k ≤ lineCap s.cfg l →
        dlRd l k t = .ok (if k ≤ ws.length then ws.getD (ws.length - k) 0 else 0)

/-! ## Commands -/

/-- A successful INIT: the whole INIT column of R48, reached from every state (R171). `ACC` is left open, as R48 says
(log 8); the wires and the free-value counter are the model's own (log 10, 23), and so are the host's queues and that the
output port keeps its last values (log 13). -/
def Obligations.InitClearsTheEngine : Prop :=
  ∀ (s : State) (inch outch : BitVec 2) (fs : BitVec 24),
    s.cfg.WF → fs.toNat = s.cfg.fsHz → inch.toNat = 2 → outch.toNat = 2 → s.cfg.reqWords ≤ s.cfg.memWords →
    ∃ t, exec (.init inch outch fs) s = .next t ∧
      t.mode = .ready ∧ t.fcnt = 0 ∧ t.seq = Seq.idle ∧ t.idx = 0 ∧
      t.lpz1 = 0 ∧ t.lpz2 = 0 ∧ t.hpz1 = 0 ∧ t.hpz2 = 0 ∧ t.dz = List.replicate s.cfg.n 0 ∧
      t.pcur = 0 ∧ t.ccur = List.replicate s.cfg.n 0 ∧ t.acur = List.replicate s.cfg.m 0 ∧
      (∀ a, a < s.cfg.reqWords → t.mem.read a = 0) ∧ (∀ a, s.cfg.reqWords ≤ a → t.mem.read a = s.mem.read a) ∧
      t.pTime = 0 ∧ t.pDepth = 0 ∧ t.pMix.toInt = s.cfg.mixReset ∧
      t.fbg = s.cfg.glut.getD 0 [] ∧ t.sendg = 0 ∧
      t.wetw.toInt = ((s.cfg.mixReset + 1000) * 2 ^ 24) / 2000 ∧ t.dryw.toInt = 2 ^ 24 - t.wetw.toInt ∧
      t.rspStatus = Status.ok ∧ t.rspData = 0 ∧
      t.cfg = s.cfg ∧ t.outL = s.outL ∧ t.outR = s.outR ∧ t.outValid = s.outValid ∧ t.rst = s.rst ∧
      t.cmdIn = s.cmdIn ∧ t.frameIn = s.frameIn ∧ t.frameOut = s.frameOut

/-- A failed INIT (R195): MODE is UNINIT and the response is an error with data 0. The model's own choices among what R195 calls
unspecified (log 7): `FCNT`, `STEP` and `IDX` are 0 (R25 to R27), DMEM words from `REQ_WORDS` on are untouched (R61) and no
output frame is signalled (`OUT_VALID`). The configuration and the host's side (log 13) are untouched. Every other register,
`OUT_L` and `OUT_R` among them, is left open. -/
def Obligations.FailedInitDestroysTheEngine : Prop :=
  ∀ (s : State) (inch outch : BitVec 2) (fs : BitVec 24),
    (fs.toNat ≠ s.cfg.fsHz ∨ inch.toNat ≠ 2 ∨ outch.toNat ≠ 2 ∨ s.cfg.memWords < s.cfg.reqWords) →
    ∃ t, exec (.init inch outch fs) s = .next t ∧ t.mode = .uninit ∧ t.rspData = 0 ∧
      t.rspStatus ≠ Status.ok ∧ t.fcnt = 0 ∧ t.seq = Seq.idle ∧ t.idx = 0 ∧
      (∀ a, s.cfg.reqWords ≤ a → t.mem.read a = s.mem.read a) ∧
      t.cfg = s.cfg ∧ t.outValid = s.outValid ∧ t.rst = s.rst ∧
      t.cmdIn = s.cmdIn ∧ t.frameIn = s.frameIn ∧ t.frameOut = s.frameOut

/-- The priority of statuses (R194): INIT reports the first of sample rate, geometry, memory that fails, a reserved word is
illegal whatever MODE is, and ERR_UNINIT comes before any operand is looked at. One status is reported for one
command, counted in the history of responses, which is the model's own (log 13). -/
def Obligations.StatusPriority : Prop :=
  (∀ (s t : State) (inch outch : BitVec 2) (fs : BitVec 24), exec (.init inch outch fs) s = .next t →
    t.rspStatus =
      if fs.toNat ≠ s.cfg.fsHz then Status.errSampleRate
      else if inch.toNat ≠ 2 ∨ outch.toNat ≠ 2 then Status.errGeometry
      else if s.cfg.memWords < s.cfg.reqWords then Status.errMemory
      else Status.ok) ∧
  (∀ (s t : State) (inch outch : BitVec 2) (fs : BitVec 24), exec (.init inch outch fs) s = .next t →
    t.rspOut.length = s.rspOut.length + 1) ∧
  (∀ (s t : State) (r28 : BitVec 28) (r29 : BitVec 29) (r31 : BitVec 31),
    ∀ i ∈ [Instr.reservedOp0 r28, .reservedOp5 r28, .reservedOp6_7 r29, .reservedOp8_15 r31],
      exec i s = .next t → t.rspStatus = Status.errIllegal ∧ t.rspOut.length = s.rspOut.length + 1) ∧
  (∀ (s t : State) (v : BitVec 24) (id : BitVec 4), s.mode = .uninit →
    ∀ i ∈ [Instr.setpTime v, .setpDepth v, .setpMix v, .setpUnknown id v, .getpTime v, .getpDepth v, .getpMix v,
        .getpUnknown id v, .render id v],
      exec i s = .next t → t.rspStatus = Status.errUninit ∧ t.rspOut.length = s.rspOut.length + 1)

/-- SETP on a READY engine (R173): it stores the clamped value in its one parameter register, or nothing for an
unrecognised identifier, responds (OK, 0), and touches neither a latch nor the datapath. -/
def Obligations.SetpStoresClampedParameter : Prop :=
  ∀ (s : State) (val : BitVec 24) (id : BitVec 4), s.mode = .ready →
    (∃ t, exec (.setpTime val) s = .next t ∧ (t.pTime.toNat : Int) = clamp val.toInt 0 1023 ∧
      OnlyResponds { s with pTime := t.pTime } t Status.ok 0 ∧ KeepsMemory s t) ∧
    (∃ t, exec (.setpDepth val) s = .next t ∧ (t.pDepth.toNat : Int) = clamp val.toInt 0 1023 ∧
      OnlyResponds { s with pDepth := t.pDepth } t Status.ok 0 ∧ KeepsMemory s t) ∧
    (∃ t, exec (.setpMix val) s = .next t ∧ t.pMix.toInt = clamp val.toInt (-1000) 1000 ∧
      OnlyResponds { s with pMix := t.pMix } t Status.ok 0 ∧ KeepsMemory s t) ∧
    (∃ t, exec (.setpUnknown id val) s = .next t ∧ OnlyResponds s t Status.ok 0 ∧ KeepsMemory s t)

/-- GETP on a READY engine (R174): the response is OK with the parameter register as a 32-bit integer, `P_MIX` signed, and
the sentinel for an unrecognised identifier; no state is written. -/
def Obligations.GetpAnswersParameter : Prop :=
  ∀ (s : State) (ign : BitVec 24) (id : BitVec 4), s.mode = .ready →
    (∃ t, exec (.getpTime ign) s = .next t ∧ t.rspData.toNat = s.pTime.toNat ∧
      OnlyResponds s t Status.ok t.rspData ∧ KeepsMemory s t) ∧
    (∃ t, exec (.getpDepth ign) s = .next t ∧ t.rspData.toNat = s.pDepth.toNat ∧
      OnlyResponds s t Status.ok t.rspData ∧ KeepsMemory s t) ∧
    (∃ t, exec (.getpMix ign) s = .next t ∧ t.rspData.toInt = s.pMix.toInt ∧
      OnlyResponds s t Status.ok t.rspData ∧ KeepsMemory s t) ∧
    (∃ t, exec (.getpUnknown id ign) s = .next t ∧ OnlyResponds s t Status.ok s.cfg.getpUnknown ∧ KeepsMemory s t)

/-- What is set is what is got: GETP straight after SETP answers the clamped value (R173, R174). -/
def Obligations.GetpAfterSetpAnswersClampedValue : Prop :=
  ∀ (s : State) (val ign : BitVec 24), s.mode = .ready →
    (∃ t u, exec (.setpTime val) s = .next t ∧ exec (.getpTime ign) t = .next u ∧
      u.rspData.toInt = clamp val.toInt 0 1023) ∧
    (∃ t u, exec (.setpDepth val) s = .next t ∧ exec (.getpDepth ign) t = .next u ∧
      u.rspData.toInt = clamp val.toInt 0 1023) ∧
    (∃ t u, exec (.setpMix val) s = .next t ∧ exec (.getpMix ign) t = .next u ∧
      u.rspData.toInt = clamp val.toInt (-1000) 1000)

/-- While `MODE = UNINIT`, SETP, GETP and RENDER change no state, transfer no frame and respond (ERR_UNINIT, 0) (R196). -/
def Obligations.UninitEngineRefusesCommands : Prop :=
  ∀ (s : State) (v : BitVec 24) (id : BitVec 4), s.mode = .uninit →
    ∀ i ∈ [Instr.setpTime v, .setpDepth v, .setpMix v, .setpUnknown id v, .getpTime v, .getpDepth v, .getpMix v,
        .getpUnknown id v, .render id v],
      ∃ t, exec i s = .next t ∧ OnlyResponds s t Status.errUninit 0 ∧ KeepsMemory s t

/-- A reserved command word changes no state, in either MODE, and responds (ERR_ILLEGAL, 0) (R197). -/
def Obligations.ReservedWordsAreIllegal : Prop :=
  ∀ (s : State) (r28 : BitVec 28) (r29 : BitVec 29) (r31 : BitVec 31),
    ∀ i ∈ [Instr.reservedOp0 r28, .reservedOp5 r28, .reservedOp6_7 r29, .reservedOp8_15 r31],
      ∃ t, exec i s = .next t ∧ OnlyResponds s t Status.errIllegal 0 ∧ KeepsMemory s t

/-- RENDER on a READY engine (R175): with a zero count nothing but the response (OK, 0), not even a latch; with `n > 0` the
frame counter is loaded and the sequencer starts at the block prologue, with no response yet. -/
def Obligations.RenderStartsTheSchedule : Prop :=
  ∀ (s : State) (ign : BitVec 4) (n : BitVec 24), s.mode = .ready →
    (n = 0 → ∃ t, exec (.render ign n) s = .next t ∧ OnlyResponds s t Status.ok 0 ∧ KeepsMemory s t) ∧
    (n ≠ 0 → exec (.render ign n) s = .next { s with fcnt := n, seq := Seq.blkpro, idx := 0 })

/-- The bits a command ignores change nothing (R88(d)). -/
def Obligations.IgnoredBitsChangeNothing : Prop :=
  ∀ (s : State) (i j : BitVec 24) (id : BitVec 4) (k l : BitVec 4) (n : BitVec 24),
    exec (.getpTime i) s = exec (.getpTime j) s ∧ exec (.getpDepth i) s = exec (.getpDepth j) s ∧
    exec (.getpMix i) s = exec (.getpMix j) s ∧ exec (.getpUnknown id i) s = exec (.getpUnknown id j) s ∧
    exec (.render k n) s = exec (.render l n) s

/-- Every instruction gives exactly one response or none, and which is which is `givesResponse`: one for every command (R44,
R170, R175). That a started RENDER responds in the step of its last EMIT is the model's inference (log 17); the history
and the strobe are its own (log 13). -/
def Obligations.ExactlyOneResponsePerCommand : Prop :=
  ∀ (i : Instr) (s t : State), exec i s = .next t →
    (givesResponse s i → t.rspValid = true ∧ t.rspOut = s.rspOut ++ [⟨t.rspStatus, t.rspData⟩]) ∧
    (¬ givesResponse s i → t.rspValid = s.rspValid ∧ t.rspOut = s.rspOut ∧ t.rspStatus = s.rspStatus ∧
      t.rspData = s.rspData)

/-! ## The internal operations -/

/-- IDLE does nothing (R26). -/
def Obligations.IdleDoesNothing : Prop := ∀ s : State, exec .idle s = .next s

/-- The block prologue latches the gains, the send gain and the two weights from the parameter registers and changes
nothing else but the sequencer's position (R176). -/
def Obligations.BlockPrologueLatchesParameters : Prop :=
  ∀ s : State, s.cfg.WF → -1000 ≤ s.pMix.toInt → s.pMix.toInt ≤ 1000 →
    ∃ t, exec .blkpro s = .next t ∧
      t.fbg = s.cfg.glut.getD (min (s.cfg.lutSteps - 1) (s.pTime.toNat * s.cfg.lutSteps / 1024)) [] ∧
      t.fbg.length = s.cfg.n ∧
      t.sendg.toInt = s.pDepth.toNat * 2 ^ 14 ∧
      t.wetw.toInt = ((s.pMix.toInt + 1000) * 2 ^ 24) / 2000 ∧ t.dryw.toInt = 2 ^ 24 - t.wetw.toInt ∧
      (0 ≤ t.wetw.toInt ∧ t.wetw.toInt ≤ 2 ^ 24 ∧ 0 ≤ t.dryw.toInt ∧ t.dryw.toInt ≤ 2 ^ 24) ∧
      t = { s with fbg := t.fbg, sendg := t.sendg, wetw := t.wetw, dryw := t.dryw, seq := t.seq, idx := t.idx } ∧
      KeepsMemory s t

/-- The gain scheduler copies the row of the gain table that the quantised time selects, a row that exists for every time,
and changes nothing else but the sequencer's position (R144). Every gain is in `[0, 1)` (R145). -/
def Obligations.GainSchedulerSelectsTableRow : Prop :=
  ∀ s : State, s.cfg.WF →
    ∃ t, exec .gsched s = .next t ∧
      (let k := min (s.cfg.lutSteps - 1) (s.pTime.toNat * s.cfg.lutSteps / 1024)
       k < s.cfg.lutSteps ∧ t.fbg.length = s.cfg.n ∧
        ∀ i, i < s.cfg.n → t.fbg.getD i 0 = (s.cfg.glut.getD k []).getD i 0 ∧
          0 ≤ (t.fbg.getD i 0).toInt ∧ (t.fbg.getD i 0).toInt < 2 ^ 24) ∧
      t = { s with fbg := t.fbg, seq := t.seq, idx := t.idx } ∧ KeepsMemory s t

/-- SEND gives the mean of its channels scaled by the send gain, rounded once; within R33's
range of `SENDG` nothing saturates (R160). That SEND is the step that takes the offered frame from the port is the model's
inference (log 12); the results stand in the model's wires (log 10); BIQ.LP is next (R177). -/
def Obligations.SendScalesTheMeanOfTheFrame : Prop :=
  ∀ (s : State) (f : Frame) (rest : List Frame), s.frameIn = f :: rest →
    ∃ t, exec .send s = .next t ∧
      t.wires.s = sat32 (rtz ((f.l.toInt + f.r.toInt) * s.sendg.toInt) 25) ∧
      (0 ≤ s.sendg.toInt → s.sendg.toInt ≤ 1023 * 2 ^ 14 →
        t.wires.s.toInt = rtz ((f.l.toInt + f.r.toInt) * s.sendg.toInt) 25) ∧
      t = { s with acc := t.acc, frameIn := rest, seq := Seq.biqLp, idx := 0,
                   wires := { s.wires with xL := f.l, xR := f.r, s := t.wires.s } } ∧
      KeepsMemory s t

/-- With no frame offered the core stays in the RENDER loop: SEND leaves the state as it is (R175, R217; log 12). -/
def Obligations.SendWaitsForAFrame : Prop := ∀ s : State, s.frameIn = [] → exec .send s = .next s

/-- The two tone filters compute R132's pseudocode exactly, with taps inside R107's bounds: the output is rounded once, the
first tap is computed from the old second tap, both without loss. The output stands in a wire (log 10). -/
def Obligations.BiquadsFollowTheirRule : Prop :=
  (∀ s : State, QA.within s.lpz1 64 → QA.within s.lpz2 63 →
    ∃ t, exec .biqLp s = .next t ∧
      t.wires.t1 = sat32 (rtz (s.lpz1.toInt + s.cfg.lp.b0.toInt * s.wires.s.toInt) 24) ∧
      t.lpz1.toInt = s.lpz2.toInt + s.cfg.lp.b1.toInt * s.wires.s.toInt - s.cfg.lp.a1.toInt * t.wires.t1.toInt ∧
      t.lpz2.toInt = s.cfg.lp.b2.toInt * s.wires.s.toInt - s.cfg.lp.a2.toInt * t.wires.t1.toInt ∧
      t = { s with acc := t.acc, lpz1 := t.lpz1, lpz2 := t.lpz2, seq := Seq.biqHp, idx := 0,
                   wires := { s.wires with t1 := t.wires.t1 } } ∧
      KeepsMemory s t) ∧
  (∀ s : State, QA.within s.hpz1 64 → QA.within s.hpz2 63 →
    ∃ t, exec .biqHp s = .next t ∧
      t.wires.t2 = sat32 (rtz (s.hpz1.toInt + s.cfg.hp.b0.toInt * s.wires.t1.toInt) 24) ∧
      t.hpz1.toInt = s.hpz2.toInt + s.cfg.hp.b1.toInt * s.wires.t1.toInt - s.cfg.hp.a1.toInt * t.wires.t2.toInt ∧
      t.hpz2.toInt = s.cfg.hp.b2.toInt * s.wires.t1.toInt - s.cfg.hp.a2.toInt * t.wires.t2.toInt ∧
      t = { s with acc := t.acc, hpz1 := t.hpz1, hpz2 := t.hpz2, seq := Seq.pdly, idx := 0,
                   wires := { s.wires with t2 := t.wires.t2 } } ∧
      KeepsMemory s t)

/-- PDLY writes the tone stage's output at the cursor and then reads at `PRE_D`, so that it sees its own write (R123). The
store goes to `writeAddr .pre s` and nowhere else. The result stands in a wire (log 10); COMB of line 0 is next (R177). -/
def Obligations.PreDelayWritesThenReads : Prop :=
  ∀ s : State, s.cfg.WF → s.cfg.reqWords ≤ s.cfg.memWords → s.cursorOk .pre → s.mem.wf = true →
    ∃ t, exec .pdly s = .next t ∧ StoresWord s t (writeAddr .pre s) s.wires.t2 ∧ t.mem.wf = true ∧
      t.pcur = (s.pcur + 1) % s.cfg.preCap ∧
      t.wires.p = t.mem.read (((t.pcur : Int) - s.cfg.preD) % s.cfg.preCap).toNat ∧
      (s.cfg.preD = 1 → t.wires.p = s.wires.t2) ∧
      t = { s with mem := t.mem, pcur := t.pcur, seq := Seq.comb, idx := 0,
                   wires := { s.wires with p := t.wires.p, r := [] } }

/-- COMB on line `i = IDX` (R141): reads the line before it writes, damps, multiplies by the gain, adds the input, rounds once,
and stores that at the cursor. The store goes to `writeAddr (.comb i) s` and nowhere else; the other lines' taps and
cursors keep their values. The line's output is appended to the wires (log 10); then the next line or CNORM (R142). -/
def Obligations.CombLineFollowsItsRule : Prop :=
  ∀ (s : State) (i : Nat), i = s.idx.toNat → i < s.cfg.n → s.cfg.WF → s.cfg.reqWords ≤ s.cfg.memWords →
    s.dz.length = s.cfg.n → s.ccur.length = s.cfg.n → s.fbg.length = s.cfg.n →
    s.cursorOk (.comb i) → s.mem.wf = true → QA.within (s.dz.getD i 0) 63 →
    ∃ (t : State) (r d w : Q), exec .comb s = .next t ∧
      r = s.mem.read (readAddr (.comb i) (combCfg s.cfg i).delay s) ∧
      d = sat32 (rtz ((s.dz.getD i 0).toInt + (combCfg s.cfg i).damp.b0.toInt * r.toInt) 24) ∧
      w = sat32 (rtz (s.wires.p.toInt * 2 ^ 24 + d.toInt * (s.fbg.getD i 0).toInt) 24) ∧
      (t.dz.getD i 0).toInt = (combCfg s.cfg i).damp.b1.toInt * r.toInt - (combCfg s.cfg i).damp.a1.toInt * d.toInt ∧
      (∀ k, k ≠ i → t.dz.getD k 0 = s.dz.getD k 0) ∧ t.dz.length = s.dz.length ∧
      StoresWord s t (writeAddr (.comb i) s) w ∧ t.mem.wf = true ∧
      t.ccur = s.ccur.set i ((s.ccur.getD i 0 + 1) % (combCfg s.cfg i).cap) ∧
      t.wires = { s.wires with r := s.wires.r ++ [r] } ∧
      (i + 1 < s.cfg.n → t.seq = Seq.comb ∧ t.idx.toNat = i + 1) ∧
      (i + 1 = s.cfg.n → t.seq = Seq.cnorm ∧ t.idx = 0) ∧
      t = { s with acc := t.acc, dz := t.dz, ccur := t.ccur, mem := t.mem, wires := t.wires, seq := t.seq, idx := t.idx }

/-- CNORM scales the exact sum of at most 64 line outputs and rounds once (R143). The result stands in a wire (log 10). -/
def Obligations.NormalisationScalesTheExactSum : Prop :=
  ∀ s : State, s.wires.r.length ≤ 64 →
    ∃ t, exec .cnorm s = .next t ∧
      t.wires.v = sat32 (rtz ((s.wires.r.map (·.toInt)).sum * s.cfg.combNorm.toInt) 24) ∧
      t = { s with acc := t.acc, seq := Seq.ap, idx := 0, wires := { s.wires with v := t.wires.v } } ∧
      KeepsMemory s t

/-- AP on line `j = IDX` (R151): reads the line before it writes, and writes back from the rounded output. The store goes to
`writeAddr (.ap j) s` and nowhere else. The output stands in a wire (log 10); then the next line or XFADE.L (R152, R177). -/
def Obligations.AllPassLineFollowsItsRule : Prop :=
  ∀ (s : State) (j : Nat), j = s.idx.toNat → j < s.cfg.m → s.cfg.WF → s.cfg.reqWords ≤ s.cfg.memWords →
    s.acur.length = s.cfg.m → s.cursorOk (.ap j) → s.mem.wf = true →
    ∃ (t : State) (del o w : Q), exec .ap s = .next t ∧
      del = s.mem.read (readAddr (.ap j) (apCfg s.cfg j).delay s) ∧
      o = sat32 (rtz (del.toInt * 2 ^ 24 - (apCfg s.cfg j).gain.toInt * s.wires.v.toInt) 24) ∧
      w = sat32 (rtz (s.wires.v.toInt * 2 ^ 24 + (apCfg s.cfg j).gain.toInt * o.toInt) 24) ∧
      StoresWord s t (writeAddr (.ap j) s) w ∧ t.mem.wf = true ∧
      t.acur = s.acur.set j ((s.acur.getD j 0 + 1) % (apCfg s.cfg j).cap) ∧
      t.wires = { s.wires with v := o } ∧
      (j + 1 < s.cfg.m → t.seq = Seq.ap ∧ t.idx.toNat = j + 1) ∧
      (j + 1 = s.cfg.m → t.seq = Seq.xfadeL ∧ t.idx = 0) ∧
      t = { s with acc := t.acc, acur := t.acur, mem := t.mem, wires := t.wires, seq := t.seq, idx := t.idx }

/-- The two crossfades (R161): each channel's dry sample and the common wet sample, weighted, added exactly, rounded once. The
result stands in a wire (log 10). -/
def Obligations.CrossfadesFollowTheirRule : Prop :=
  (∀ s : State, ∃ t, exec .xfadeL s = .next t ∧
    t.wires.mL = sat32 (rtz (s.dryw.toInt * s.wires.xL.toInt + s.wetw.toInt * s.wires.v.toInt) 24) ∧
    t = { s with acc := t.acc, seq := Seq.sclipL, idx := 0, wires := { s.wires with mL := t.wires.mL } } ∧
    KeepsMemory s t) ∧
  (∀ s : State, ∃ t, exec .xfadeR s = .next t ∧
    t.wires.mR = sat32 (rtz (s.dryw.toInt * s.wires.xR.toInt + s.wetw.toInt * s.wires.v.toInt) 24) ∧
    t = { s with acc := t.acc, seq := Seq.sclipR, idx := 0, wires := { s.wires with mR := t.wires.mR } } ∧
    KeepsMemory s t)

/-- The crossfade stays between the dry and the wet sample (R161), and at the mix boundaries one of them does not appear at
all (R162). -/
def Obligations.CrossfadeBoundariesAreExact : Prop :=
  wetWeight (-1000) = 0 ∧ (dryWeight (wetWeight (-1000))).toInt = 2 ^ 24 ∧
  (wetWeight 1000).toInt = 2 ^ 24 ∧ dryWeight (wetWeight 1000) = 0 ∧
  ∀ (s : State) (x w : Q), 0 ≤ s.wetw.toInt → s.wetw.toInt ≤ 2 ^ 24 → s.dryw.toInt = 2 ^ 24 - s.wetw.toInt →
    (min x.toInt w.toInt ≤ (xfade x w s).1.toInt ∧ (xfade x w s).1.toInt ≤ max x.toInt w.toInt) ∧
    (s.wetw.toInt = 0 → (xfade x w s).1 = x) ∧ (s.wetw.toInt = 2 ^ 24 → (xfade x w s).1 = w)

/-- The two soft clips compute R163 as a function on integers, whose intermediate values never leave their registers. The
result stands in a wire (log 10). -/
def Obligations.SoftClipsFollowTheirRule : Prop :=
  (∀ s : State, ∃ t, exec .sclipL s = .next t ∧ t.wires.yL = softClip s.cfg s.wires.mL ∧
    t = { s with acc := t.acc, seq := Seq.xfadeR, idx := 0, wires := { s.wires with yL := t.wires.yL } } ∧
    KeepsMemory s t) ∧
  (∀ s : State, ∃ t, exec .sclipR s = .next t ∧ t.wires.yR = softClip s.cfg s.wires.mR ∧
    t = { s with acc := t.acc, seq := Seq.emit, idx := 0, wires := { s.wires with yR := t.wires.yR } } ∧
    KeepsMemory s t)

/-- The soft clip stays strictly below the post-scale, gives 0 for 0 and is odd (R164(a), (c)). -/
def Obligations.SoftClipIsBoundedAndOdd : Prop :=
  ∀ (c : Cfg) (m : Q), 0 < c.scPost.toInt →
    |(softClip c m).toInt| < c.scPost.toInt ∧ softClip c 0 = 0 ∧
    (m.toInt ≠ qMin → (softClip c (-m)).toInt = -(softClip c m).toInt)

/-- EMIT presents the frame on the output port and counts it (R177); while frames are left the loop goes on at SEND, after
the last one the RENDER responds (OK, 0) and the core is idle (R175). Strobes and histories are the model's own (log 13). -/
def Obligations.EmitPresentsTheFrame : Prop :=
  ∀ s : State, s.fcnt ≠ 0 →
    ∃ t, exec .emit s = .next t ∧ t.outL = s.wires.yL ∧ t.outR = s.wires.yR ∧ t.outValid = true ∧
      t.frameOut = s.frameOut ++ [⟨s.wires.yL, s.wires.yR⟩] ∧ t.fcnt.toNat + 1 = s.fcnt.toNat ∧ t.idx = 0 ∧
      (s.fcnt.toNat ≠ 1 → t.seq = Seq.send ∧ t.rspOut = s.rspOut ∧ t.rspStatus = s.rspStatus ∧
        t.rspData = s.rspData ∧ t.rspValid = s.rspValid) ∧
      (s.fcnt.toNat = 1 → t.seq = Seq.idle ∧ t.rspStatus = Status.ok ∧ t.rspData = 0 ∧ t.rspValid = true ∧
        t.rspOut = s.rspOut ++ [⟨Status.ok, 0⟩]) ∧
      t = { s with outL := t.outL, outR := t.outR, outValid := t.outValid, frameOut := t.frameOut, fcnt := t.fcnt,
                   seq := t.seq, idx := t.idx, rspStatus := t.rspStatus, rspData := t.rspData,
                   rspValid := t.rspValid, rspOut := t.rspOut } ∧
      KeepsMemory s t

/-! ## Whole-machine rules -/

/-- A step runs the decoded instruction: between commands the offered word, or IDLE when none is offered, and inside a RENDER
the operation whose code is in STEP (R43, R89, R170). That a step first lowers the two strobes is the model's (log 13). -/
def Obligations.StepRunsTheDecodedInstruction : Prop :=
  ∀ s : State, s.cfg.WF → s.rst = false →
    (∀ w rest, s.seq = Seq.idle → s.cmdIn = w :: rest →
      step s = exec (decodeCmd w) { s with outValid := false, rspValid := false, cmdIn := rest }) ∧
    (s.seq = Seq.idle → s.cmdIn = [] →
      step s = exec .idle { s with outValid := false, rspValid := false }) ∧
    (∀ i, s.seq ≠ Seq.idle → decode (.seq s.seq) = .ok i →
      step s = exec i { s with outValid := false, rspValid := false })

/-- Asserting RST puts the core into the column `after RST`: UNINIT, sequencer idle, nothing pending, a command in progress
abandoned without a response; the registers R48 calls unspecified are left open (R210). That the model takes the input
down again after the step, and keeps the host's queues, is its own (log 15). -/
def Obligations.ResetAbandonsEverything : Prop :=
  ∀ s : State, s.cfg.WF → s.rst = true →
    ∃ t, step s = .next t ∧ t.mode = .uninit ∧ t.fcnt = 0 ∧ t.seq = Seq.idle ∧ t.idx = 0 ∧
      t.outValid = false ∧ t.rspValid = false ∧ t.cmdReady = true ∧ t.inReady = false ∧
      t.rspOut = s.rspOut ∧ t.frameOut = s.frameOut ∧ t.cmdIn = s.cmdIn ∧ t.frameIn = s.frameIn ∧
      t.cfg = s.cfg ∧ t.rst = false

/-- A configuration that is not well formed is refused and never given a meaning (R8; log 2), and so is an unused STEP
code (R89; log 18). -/
def Obligations.IllFormedConfigurationIsRefused : Prop :=
  (∀ s : State, ¬ s.cfg.WF → step s = .refused .illFormedConfig) ∧
  (∀ s : State, s.cfg.WF → s.rst = false → 14 < s.seq.toNat → step s = .refused .unusedStep)

/-- The state after reset has every value that R48 and R210 state for it. -/
def Obligations.ResetStateIsTheRstColumn : Prop :=
  State.reset.mode = .uninit ∧ State.reset.fcnt = 0 ∧ State.reset.seq = Seq.idle ∧ State.reset.idx = 0 ∧
  State.reset.outValid = false ∧ State.reset.rspValid = false ∧ State.reset.cmdReady = true ∧
  State.reset.inReady = false

/-- The invariant holds after reset, for every well-formed configuration and for the one of `State.reset`. That it holds
of the registers R48 calls unspecified rests on the model's values for them (log 3). -/
def Obligations.InvariantHoldsAtReset : Prop :=
  State.reset.Inv ∧ ∀ c : Cfg, c.WF → (State.resetOf c).Inv

/-- Every step keeps the invariant: the canonical memory, the sequencer's discipline and, while READY, legal cursors, gains
in `[0, ONE)`, weights that sum to `ONE`, and taps inside the bounds of R107 (R23 to R27, R31 to R34, R107, R145). -/
def Obligations.StepKeepsTheInvariant : Prop :=
  ∀ s t : State, s.Inv → step s = .next t → t.Inv

/-- From a state that meets the invariant no step stops: no address is out of range, no line is missing, no command and no
sample value is refused (R65, R201). -/
def Obligations.GoodStatesNeverStop : Prop :=
  ∀ s : State, s.Inv → ∃ t, step s = .next t

/-- A RENDER of `n > 0` frames whose frames are offered ends after exactly `2 + n * (10 + N + M)` steps: `n` frames taken, `n`
given, one response (OK, 0), the core idle (R42, R44, R175, R178). The step count is the model's granularity (log 10), frames
and responses are counted in its own queues and histories (log 13), and the response comes with the last EMIT (log 17). -/
def Obligations.RenderTakesAndGivesExactlyItsFrames : Prop :=
  ∀ (s : State) (w : CmdWord) (rest : List CmdWord) (ign : BitVec 4) (n : BitVec 24),
    s.Inv → s.rst = false → s.mode = .ready → s.seq = Seq.idle → s.cmdIn = w :: rest → decodeCmd w = .render ign n →
    n ≠ 0 → n.toNat ≤ s.frameIn.length →
    ∃ t, Sys2Proof.core.run (2 + n.toNat * frameSteps s.cfg) s = .next t ∧
      t.seq = Seq.idle ∧ t.fcnt = 0 ∧ t.mode = .ready ∧ t.cmdIn = rest ∧
      t.frameIn = s.frameIn.drop n.toNat ∧
      (∃ out : List Frame, out.length = n.toNat ∧ t.frameOut = s.frameOut ++ out) ∧
      t.rspStatus = Status.ok ∧ t.rspData = 0 ∧ t.rspOut = s.rspOut ++ [⟨Status.ok, 0⟩]

/-- Block splitting (R175): RENDER a followed by RENDER b leaves the same state and gives the same output frames as
RENDER (a + b) on the same input frames. Only the number of responses differs, counted in the model's own history (log 13);
the step counts are the model's granularity (log 10). -/
def Obligations.SplittingABlockChangesNothing : Prop :=
  ∀ (s : State) (wa wb wab : CmdWord) (ia ib iab : BitVec 4) (a b ab : BitVec 24),
    s.Inv → s.rst = false → s.mode = .ready → s.seq = Seq.idle →
    decodeCmd wa = .render ia a → decodeCmd wb = .render ib b → decodeCmd wab = .render iab ab →
    a ≠ 0 → b ≠ 0 → a.toNat + b.toNat = ab.toNat → ab.toNat ≤ s.frameIn.length →
    ∃ t u, Sys2Proof.core.run (4 + ab.toNat * frameSteps s.cfg) { s with cmdIn := [wa, wb] } = .next t ∧
      Sys2Proof.core.run (2 + ab.toNat * frameSteps s.cfg) { s with cmdIn := [wab] } = .next u ∧
      t = { u with rspOut := t.rspOut }

/-- Silence (R214(a)): on a silent datapath a frame whose send value is 0 leaves the datapath silent, gives a wet sample of 0
and outputs the soft-clipped dry input alone, which is 0 for a zero frame. The length of a frame in steps and the wire that
holds the wet sample are the model's own (log 10), and so is the history of frames (log 13). -/
def Obligations.SilentFrameStaysSilent : Prop :=
  ∀ (s : State) (f : Frame) (rest : List Frame),
    s.Inv → s.rst = false → s.seq = Seq.send → s.frameIn = f :: rest → s.Silent →
    sat32 (rtz ((f.l.toInt + f.r.toInt) * s.sendg.toInt) 25) = 0 →
    ∃ t, Sys2Proof.core.run (frameSteps s.cfg) s = .next t ∧ t.Silent ∧ t.wires.v = 0 ∧
      t.outL = softClip s.cfg (sat32 (rtz (s.dryw.toInt * f.l.toInt) 24)) ∧
      t.outR = softClip s.cfg (sat32 (rtz (s.dryw.toInt * f.r.toInt) 24)) ∧
      t.frameOut = s.frameOut ++ [⟨t.outL, t.outR⟩] ∧
      (f = ⟨0, 0⟩ → t.outL = 0 ∧ t.outR = 0)

/-- The wet sample of a frame never depends on the input of that frame (R177): two runs of one frame from the same state on
different input frames give the same wet sample. The length of a frame in steps and the wire that holds the wet sample are
the model's own (log 10). -/
def Obligations.WetSampleIgnoresTheFramesOwnInput : Prop :=
  ∀ (s : State) (f g : Frame) (rest rest' : List Frame),
    s.Inv → s.rst = false → s.seq = Seq.send →
    ∃ t u, Sys2Proof.core.run (frameSteps s.cfg) { s with frameIn := f :: rest } = .next t ∧
      Sys2Proof.core.run (frameSteps s.cfg) { s with frameIn := g :: rest' } = .next u ∧
      t.wires.v = u.wires.v

/-- The accumulator carries nothing from one operation to the next: its value before an instruction changes nothing the
instruction does but the accumulator itself (R35). -/
def Obligations.AccumulatorCarriesNothingOver : Prop :=
  ∀ (i : Instr) (s : State) (a : QA),
    (∀ t, exec i s = .next t → ∃ b, exec i { s with acc := a } = .next { t with acc := b }) ∧
    (∀ f, exec i s = .fault f → exec i { s with acc := a } = .fault f)

/-- The parameter registers are written only by their own SETP and by INIT, MODE only by INIT, and the configuration by
nothing (R7, R24, R29 to R31). -/
def Obligations.ParametersAndModeHaveOneWriter : Prop :=
  ∀ (i : Instr) (s t : State), exec i s = .next t →
    t.cfg = s.cfg ∧
    ((∀ a b f, i ≠ .init a b f) →
      t.mode = s.mode ∧
      ((∀ v, i ≠ .setpTime v) → t.pTime = s.pTime) ∧
      ((∀ v, i ≠ .setpDepth v) → t.pDepth = s.pDepth) ∧
      ((∀ v, i ≠ .setpMix v) → t.pMix = s.pMix))

/-- The block latches are written only at the start of a block and by INIT (R32 to R34, R46). -/
def Obligations.LatchesChangeOnlyAtABlockStart : Prop :=
  ∀ (i : Instr) (s t : State), exec i s = .next t → (∀ a b f, i ≠ .init a b f) → i ≠ .blkpro →
    t.sendg = s.sendg ∧ t.wetw = s.wetw ∧ t.dryw = s.dryw ∧ (i ≠ .gsched → t.fbg = s.fbg)

/-- Every datapath register is written only by the operation that owns it and by INIT (R20 to R23, R47), COMB and AP write the
registers of their own line alone, and no operation but PDLY, COMB, AP and INIT changes DMEM (R63): each of those three
changes one word at most, the one at the write address of its own line, and with a legal cursor that word is one of the line's
own region (R61), so no operation stores into the region of another line. -/
def Obligations.DatapathIsOwnedByItsStage : Prop :=
  ∀ (i : Instr) (s t : State), exec i s = .next t → (∀ a b f, i ≠ .init a b f) →
    (i ≠ .biqLp → t.lpz1 = s.lpz1 ∧ t.lpz2 = s.lpz2) ∧
    (i ≠ .biqHp → t.hpz1 = s.hpz1 ∧ t.hpz2 = s.hpz2) ∧
    (i ≠ .comb → t.dz = s.dz ∧ t.ccur = s.ccur) ∧
    (i ≠ .pdly → t.pcur = s.pcur) ∧
    (i ≠ .ap → t.acur = s.acur) ∧
    (i ≠ .pdly → i ≠ .comb → i ≠ .ap → KeepsMemory s t) ∧
    (i = .comb → ∀ k, k ≠ s.idx.toNat →
      t.dz.getD k 0 = s.dz.getD k 0 ∧ lineCursor t (.comb k) = lineCursor s (.comb k)) ∧
    (i = .ap → ∀ k, k ≠ s.idx.toNat → lineCursor t (.ap k) = lineCursor s (.ap k)) ∧
    (s.mem.wf = true →
      (i = .pdly → ∀ a, a ≠ writeAddr .pre s → t.mem.read a = s.mem.read a) ∧
      (i = .comb → ∀ a, a ≠ writeAddr (.comb s.idx.toNat) s → t.mem.read a = s.mem.read a) ∧
      (i = .ap → ∀ a, a ≠ writeAddr (.ap s.idx.toNat) s → t.mem.read a = s.mem.read a) ∧
      (s.cursorOk .pre → i = .pdly → ∀ a, lineCap s.cfg .pre ≤ a → t.mem.read a = s.mem.read a) ∧
      (s.cursorOk (.comb s.idx.toNat) → i = .comb → ∀ a,
        (a < lineBase s.cfg (.comb s.idx.toNat) ∨
          lineBase s.cfg (.comb s.idx.toNat) + lineCap s.cfg (.comb s.idx.toNat) ≤ a) → t.mem.read a = s.mem.read a) ∧
      (s.cursorOk (.ap s.idx.toNat) → i = .ap → ∀ a,
        (a < lineBase s.cfg (.ap s.idx.toNat) ∨
          lineBase s.cfg (.ap s.idx.toNat) + lineCap s.cfg (.ap s.idx.toNat) ≤ a) → t.mem.read a = s.mem.read a))

/-- No step but a hardware reset changes a DMEM word from `REQ_WORDS` on: such words are never written (R61). For a failed INIT,
after which R195 and R48 call every other piece of state unspecified, that these words are kept is the model's choice
(log 7). -/
def Obligations.WordsBeyondTheLinesNeverChange : Prop :=
  ∀ s t : State, s.Inv → s.rst = false → step s = .next t →
    ∀ a, s.cfg.reqWords ≤ a → t.mem.read a = s.mem.read a
end

