-- ==== Sys2Proof/Laws/State.lean ====
section
/-! SUPPORT. One lemma per field per named update of the state, all true by unfolding, so that no proof has to unfold a
record update. -/

namespace Sys2Proof.Machine

/-! ### setAcc -/

@[simp] theorem setAcc_cfg (v : QA) (s : State) : (setAcc v s).cfg = s.cfg := rfl
@[simp] theorem setAcc_lpz1 (v : QA) (s : State) : (setAcc v s).lpz1 = s.lpz1 := rfl
@[simp] theorem setAcc_lpz2 (v : QA) (s : State) : (setAcc v s).lpz2 = s.lpz2 := rfl
@[simp] theorem setAcc_hpz1 (v : QA) (s : State) : (setAcc v s).hpz1 = s.hpz1 := rfl
@[simp] theorem setAcc_hpz2 (v : QA) (s : State) : (setAcc v s).hpz2 = s.hpz2 := rfl
@[simp] theorem setAcc_dz (v : QA) (s : State) : (setAcc v s).dz = s.dz := rfl
@[simp] theorem setAcc_pcur (v : QA) (s : State) : (setAcc v s).pcur = s.pcur := rfl
@[simp] theorem setAcc_ccur (v : QA) (s : State) : (setAcc v s).ccur = s.ccur := rfl
@[simp] theorem setAcc_acur (v : QA) (s : State) : (setAcc v s).acur = s.acur := rfl
@[simp] theorem setAcc_mode (v : QA) (s : State) : (setAcc v s).mode = s.mode := rfl
@[simp] theorem setAcc_fcnt (v : QA) (s : State) : (setAcc v s).fcnt = s.fcnt := rfl
@[simp] theorem setAcc_seq (v : QA) (s : State) : (setAcc v s).seq = s.seq := rfl
@[simp] theorem setAcc_idx (v : QA) (s : State) : (setAcc v s).idx = s.idx := rfl
@[simp] theorem setAcc_pTime (v : QA) (s : State) : (setAcc v s).pTime = s.pTime := rfl
@[simp] theorem setAcc_pDepth (v : QA) (s : State) : (setAcc v s).pDepth = s.pDepth := rfl
@[simp] theorem setAcc_pMix (v : QA) (s : State) : (setAcc v s).pMix = s.pMix := rfl
@[simp] theorem setAcc_fbg (v : QA) (s : State) : (setAcc v s).fbg = s.fbg := rfl
@[simp] theorem setAcc_sendg (v : QA) (s : State) : (setAcc v s).sendg = s.sendg := rfl
@[simp] theorem setAcc_wetw (v : QA) (s : State) : (setAcc v s).wetw = s.wetw := rfl
@[simp] theorem setAcc_dryw (v : QA) (s : State) : (setAcc v s).dryw = s.dryw := rfl
@[simp] theorem setAcc_acc (v : QA) (s : State) : (setAcc v s).acc = v := rfl
@[simp] theorem setAcc_mem (v : QA) (s : State) : (setAcc v s).mem = s.mem := rfl
@[simp] theorem setAcc_outL (v : QA) (s : State) : (setAcc v s).outL = s.outL := rfl
@[simp] theorem setAcc_outR (v : QA) (s : State) : (setAcc v s).outR = s.outR := rfl
@[simp] theorem setAcc_outValid (v : QA) (s : State) : (setAcc v s).outValid = s.outValid := rfl
@[simp] theorem setAcc_rspStatus (v : QA) (s : State) : (setAcc v s).rspStatus = s.rspStatus := rfl
@[simp] theorem setAcc_rspData (v : QA) (s : State) : (setAcc v s).rspData = s.rspData := rfl
@[simp] theorem setAcc_rspValid (v : QA) (s : State) : (setAcc v s).rspValid = s.rspValid := rfl
@[simp] theorem setAcc_rst (v : QA) (s : State) : (setAcc v s).rst = s.rst := rfl
@[simp] theorem setAcc_cmdIn (v : QA) (s : State) : (setAcc v s).cmdIn = s.cmdIn := rfl
@[simp] theorem setAcc_frameIn (v : QA) (s : State) : (setAcc v s).frameIn = s.frameIn := rfl
@[simp] theorem setAcc_frameOut (v : QA) (s : State) : (setAcc v s).frameOut = s.frameOut := rfl
@[simp] theorem setAcc_rspOut (v : QA) (s : State) : (setAcc v s).rspOut = s.rspOut := rfl
@[simp] theorem setAcc_wires (v : QA) (s : State) : (setAcc v s).wires = s.wires := rfl
@[simp] theorem setAcc_freeCount (v : QA) (s : State) : (setAcc v s).freeCount = s.freeCount := rfl

/-! ### accClr -/

@[simp] theorem accClr_cfg (s : State) : (accClr s).cfg = s.cfg := rfl
@[simp] theorem accClr_lpz1 (s : State) : (accClr s).lpz1 = s.lpz1 := rfl
@[simp] theorem accClr_lpz2 (s : State) : (accClr s).lpz2 = s.lpz2 := rfl
@[simp] theorem accClr_hpz1 (s : State) : (accClr s).hpz1 = s.hpz1 := rfl
@[simp] theorem accClr_hpz2 (s : State) : (accClr s).hpz2 = s.hpz2 := rfl
@[simp] theorem accClr_dz (s : State) : (accClr s).dz = s.dz := rfl
@[simp] theorem accClr_pcur (s : State) : (accClr s).pcur = s.pcur := rfl
@[simp] theorem accClr_ccur (s : State) : (accClr s).ccur = s.ccur := rfl
@[simp] theorem accClr_acur (s : State) : (accClr s).acur = s.acur := rfl
@[simp] theorem accClr_mode (s : State) : (accClr s).mode = s.mode := rfl
@[simp] theorem accClr_fcnt (s : State) : (accClr s).fcnt = s.fcnt := rfl
@[simp] theorem accClr_seq (s : State) : (accClr s).seq = s.seq := rfl
@[simp] theorem accClr_idx (s : State) : (accClr s).idx = s.idx := rfl
@[simp] theorem accClr_pTime (s : State) : (accClr s).pTime = s.pTime := rfl
@[simp] theorem accClr_pDepth (s : State) : (accClr s).pDepth = s.pDepth := rfl
@[simp] theorem accClr_pMix (s : State) : (accClr s).pMix = s.pMix := rfl
@[simp] theorem accClr_fbg (s : State) : (accClr s).fbg = s.fbg := rfl
@[simp] theorem accClr_sendg (s : State) : (accClr s).sendg = s.sendg := rfl
@[simp] theorem accClr_wetw (s : State) : (accClr s).wetw = s.wetw := rfl
@[simp] theorem accClr_dryw (s : State) : (accClr s).dryw = s.dryw := rfl
@[simp] theorem accClr_acc (s : State) : (accClr s).acc = 0 := rfl
@[simp] theorem accClr_mem (s : State) : (accClr s).mem = s.mem := rfl
@[simp] theorem accClr_outL (s : State) : (accClr s).outL = s.outL := rfl
@[simp] theorem accClr_outR (s : State) : (accClr s).outR = s.outR := rfl
@[simp] theorem accClr_outValid (s : State) : (accClr s).outValid = s.outValid := rfl
@[simp] theorem accClr_rspStatus (s : State) : (accClr s).rspStatus = s.rspStatus := rfl
@[simp] theorem accClr_rspData (s : State) : (accClr s).rspData = s.rspData := rfl
@[simp] theorem accClr_rspValid (s : State) : (accClr s).rspValid = s.rspValid := rfl
@[simp] theorem accClr_rst (s : State) : (accClr s).rst = s.rst := rfl
@[simp] theorem accClr_cmdIn (s : State) : (accClr s).cmdIn = s.cmdIn := rfl
@[simp] theorem accClr_frameIn (s : State) : (accClr s).frameIn = s.frameIn := rfl
@[simp] theorem accClr_frameOut (s : State) : (accClr s).frameOut = s.frameOut := rfl
@[simp] theorem accClr_rspOut (s : State) : (accClr s).rspOut = s.rspOut := rfl
@[simp] theorem accClr_wires (s : State) : (accClr s).wires = s.wires := rfl
@[simp] theorem accClr_freeCount (s : State) : (accClr s).freeCount = s.freeCount := rfl

/-! ### accLd -/

@[simp] theorem accLd_cfg (t : Tap) (s : State) : (accLd t s).cfg = s.cfg := rfl
@[simp] theorem accLd_lpz1 (t : Tap) (s : State) : (accLd t s).lpz1 = s.lpz1 := rfl
@[simp] theorem accLd_lpz2 (t : Tap) (s : State) : (accLd t s).lpz2 = s.lpz2 := rfl
@[simp] theorem accLd_hpz1 (t : Tap) (s : State) : (accLd t s).hpz1 = s.hpz1 := rfl
@[simp] theorem accLd_hpz2 (t : Tap) (s : State) : (accLd t s).hpz2 = s.hpz2 := rfl
@[simp] theorem accLd_dz (t : Tap) (s : State) : (accLd t s).dz = s.dz := rfl
@[simp] theorem accLd_pcur (t : Tap) (s : State) : (accLd t s).pcur = s.pcur := rfl
@[simp] theorem accLd_ccur (t : Tap) (s : State) : (accLd t s).ccur = s.ccur := rfl
@[simp] theorem accLd_acur (t : Tap) (s : State) : (accLd t s).acur = s.acur := rfl
@[simp] theorem accLd_mode (t : Tap) (s : State) : (accLd t s).mode = s.mode := rfl
@[simp] theorem accLd_fcnt (t : Tap) (s : State) : (accLd t s).fcnt = s.fcnt := rfl
@[simp] theorem accLd_seq (t : Tap) (s : State) : (accLd t s).seq = s.seq := rfl
@[simp] theorem accLd_idx (t : Tap) (s : State) : (accLd t s).idx = s.idx := rfl
@[simp] theorem accLd_pTime (t : Tap) (s : State) : (accLd t s).pTime = s.pTime := rfl
@[simp] theorem accLd_pDepth (t : Tap) (s : State) : (accLd t s).pDepth = s.pDepth := rfl
@[simp] theorem accLd_pMix (t : Tap) (s : State) : (accLd t s).pMix = s.pMix := rfl
@[simp] theorem accLd_fbg (t : Tap) (s : State) : (accLd t s).fbg = s.fbg := rfl
@[simp] theorem accLd_sendg (t : Tap) (s : State) : (accLd t s).sendg = s.sendg := rfl
@[simp] theorem accLd_wetw (t : Tap) (s : State) : (accLd t s).wetw = s.wetw := rfl
@[simp] theorem accLd_dryw (t : Tap) (s : State) : (accLd t s).dryw = s.dryw := rfl
@[simp] theorem accLd_acc (t : Tap) (s : State) : (accLd t s).acc = readTap s t := rfl
@[simp] theorem accLd_mem (t : Tap) (s : State) : (accLd t s).mem = s.mem := rfl
@[simp] theorem accLd_outL (t : Tap) (s : State) : (accLd t s).outL = s.outL := rfl
@[simp] theorem accLd_outR (t : Tap) (s : State) : (accLd t s).outR = s.outR := rfl
@[simp] theorem accLd_outValid (t : Tap) (s : State) : (accLd t s).outValid = s.outValid := rfl
@[simp] theorem accLd_rspStatus (t : Tap) (s : State) : (accLd t s).rspStatus = s.rspStatus := rfl
@[simp] theorem accLd_rspData (t : Tap) (s : State) : (accLd t s).rspData = s.rspData := rfl
@[simp] theorem accLd_rspValid (t : Tap) (s : State) : (accLd t s).rspValid = s.rspValid := rfl
@[simp] theorem accLd_rst (t : Tap) (s : State) : (accLd t s).rst = s.rst := rfl
@[simp] theorem accLd_cmdIn (t : Tap) (s : State) : (accLd t s).cmdIn = s.cmdIn := rfl
@[simp] theorem accLd_frameIn (t : Tap) (s : State) : (accLd t s).frameIn = s.frameIn := rfl
@[simp] theorem accLd_frameOut (t : Tap) (s : State) : (accLd t s).frameOut = s.frameOut := rfl
@[simp] theorem accLd_rspOut (t : Tap) (s : State) : (accLd t s).rspOut = s.rspOut := rfl
@[simp] theorem accLd_wires (t : Tap) (s : State) : (accLd t s).wires = s.wires := rfl
@[simp] theorem accLd_freeCount (t : Tap) (s : State) : (accLd t s).freeCount = s.freeCount := rfl

/-! ### accMac -/

@[simp] theorem accMac_cfg (a b : Q) (s : State) : (accMac a b s).cfg = s.cfg := rfl
@[simp] theorem accMac_lpz1 (a b : Q) (s : State) : (accMac a b s).lpz1 = s.lpz1 := rfl
@[simp] theorem accMac_lpz2 (a b : Q) (s : State) : (accMac a b s).lpz2 = s.lpz2 := rfl
@[simp] theorem accMac_hpz1 (a b : Q) (s : State) : (accMac a b s).hpz1 = s.hpz1 := rfl
@[simp] theorem accMac_hpz2 (a b : Q) (s : State) : (accMac a b s).hpz2 = s.hpz2 := rfl
@[simp] theorem accMac_dz (a b : Q) (s : State) : (accMac a b s).dz = s.dz := rfl
@[simp] theorem accMac_pcur (a b : Q) (s : State) : (accMac a b s).pcur = s.pcur := rfl
@[simp] theorem accMac_ccur (a b : Q) (s : State) : (accMac a b s).ccur = s.ccur := rfl
@[simp] theorem accMac_acur (a b : Q) (s : State) : (accMac a b s).acur = s.acur := rfl
@[simp] theorem accMac_mode (a b : Q) (s : State) : (accMac a b s).mode = s.mode := rfl
@[simp] theorem accMac_fcnt (a b : Q) (s : State) : (accMac a b s).fcnt = s.fcnt := rfl
@[simp] theorem accMac_seq (a b : Q) (s : State) : (accMac a b s).seq = s.seq := rfl
@[simp] theorem accMac_idx (a b : Q) (s : State) : (accMac a b s).idx = s.idx := rfl
@[simp] theorem accMac_pTime (a b : Q) (s : State) : (accMac a b s).pTime = s.pTime := rfl
@[simp] theorem accMac_pDepth (a b : Q) (s : State) : (accMac a b s).pDepth = s.pDepth := rfl
@[simp] theorem accMac_pMix (a b : Q) (s : State) : (accMac a b s).pMix = s.pMix := rfl
@[simp] theorem accMac_fbg (a b : Q) (s : State) : (accMac a b s).fbg = s.fbg := rfl
@[simp] theorem accMac_sendg (a b : Q) (s : State) : (accMac a b s).sendg = s.sendg := rfl
@[simp] theorem accMac_wetw (a b : Q) (s : State) : (accMac a b s).wetw = s.wetw := rfl
@[simp] theorem accMac_dryw (a b : Q) (s : State) : (accMac a b s).dryw = s.dryw := rfl
@[simp] theorem accMac_acc (a b : Q) (s : State) : (accMac a b s).acc = BitVec.ofInt 72 (s.acc.toInt + a.toInt * b.toInt) := rfl
@[simp] theorem accMac_mem (a b : Q) (s : State) : (accMac a b s).mem = s.mem := rfl
@[simp] theorem accMac_outL (a b : Q) (s : State) : (accMac a b s).outL = s.outL := rfl
@[simp] theorem accMac_outR (a b : Q) (s : State) : (accMac a b s).outR = s.outR := rfl
@[simp] theorem accMac_outValid (a b : Q) (s : State) : (accMac a b s).outValid = s.outValid := rfl
@[simp] theorem accMac_rspStatus (a b : Q) (s : State) : (accMac a b s).rspStatus = s.rspStatus := rfl
@[simp] theorem accMac_rspData (a b : Q) (s : State) : (accMac a b s).rspData = s.rspData := rfl
@[simp] theorem accMac_rspValid (a b : Q) (s : State) : (accMac a b s).rspValid = s.rspValid := rfl
@[simp] theorem accMac_rst (a b : Q) (s : State) : (accMac a b s).rst = s.rst := rfl
@[simp] theorem accMac_cmdIn (a b : Q) (s : State) : (accMac a b s).cmdIn = s.cmdIn := rfl
@[simp] theorem accMac_frameIn (a b : Q) (s : State) : (accMac a b s).frameIn = s.frameIn := rfl
@[simp] theorem accMac_frameOut (a b : Q) (s : State) : (accMac a b s).frameOut = s.frameOut := rfl
@[simp] theorem accMac_rspOut (a b : Q) (s : State) : (accMac a b s).rspOut = s.rspOut := rfl
@[simp] theorem accMac_wires (a b : Q) (s : State) : (accMac a b s).wires = s.wires := rfl
@[simp] theorem accMac_freeCount (a b : Q) (s : State) : (accMac a b s).freeCount = s.freeCount := rfl

/-! ### accMsu -/

@[simp] theorem accMsu_cfg (a b : Q) (s : State) : (accMsu a b s).cfg = s.cfg := rfl
@[simp] theorem accMsu_lpz1 (a b : Q) (s : State) : (accMsu a b s).lpz1 = s.lpz1 := rfl
@[simp] theorem accMsu_lpz2 (a b : Q) (s : State) : (accMsu a b s).lpz2 = s.lpz2 := rfl
@[simp] theorem accMsu_hpz1 (a b : Q) (s : State) : (accMsu a b s).hpz1 = s.hpz1 := rfl
@[simp] theorem accMsu_hpz2 (a b : Q) (s : State) : (accMsu a b s).hpz2 = s.hpz2 := rfl
@[simp] theorem accMsu_dz (a b : Q) (s : State) : (accMsu a b s).dz = s.dz := rfl
@[simp] theorem accMsu_pcur (a b : Q) (s : State) : (accMsu a b s).pcur = s.pcur := rfl
@[simp] theorem accMsu_ccur (a b : Q) (s : State) : (accMsu a b s).ccur = s.ccur := rfl
@[simp] theorem accMsu_acur (a b : Q) (s : State) : (accMsu a b s).acur = s.acur := rfl
@[simp] theorem accMsu_mode (a b : Q) (s : State) : (accMsu a b s).mode = s.mode := rfl
@[simp] theorem accMsu_fcnt (a b : Q) (s : State) : (accMsu a b s).fcnt = s.fcnt := rfl
@[simp] theorem accMsu_seq (a b : Q) (s : State) : (accMsu a b s).seq = s.seq := rfl
@[simp] theorem accMsu_idx (a b : Q) (s : State) : (accMsu a b s).idx = s.idx := rfl
@[simp] theorem accMsu_pTime (a b : Q) (s : State) : (accMsu a b s).pTime = s.pTime := rfl
@[simp] theorem accMsu_pDepth (a b : Q) (s : State) : (accMsu a b s).pDepth = s.pDepth := rfl
@[simp] theorem accMsu_pMix (a b : Q) (s : State) : (accMsu a b s).pMix = s.pMix := rfl
@[simp] theorem accMsu_fbg (a b : Q) (s : State) : (accMsu a b s).fbg = s.fbg := rfl
@[simp] theorem accMsu_sendg (a b : Q) (s : State) : (accMsu a b s).sendg = s.sendg := rfl
@[simp] theorem accMsu_wetw (a b : Q) (s : State) : (accMsu a b s).wetw = s.wetw := rfl
@[simp] theorem accMsu_dryw (a b : Q) (s : State) : (accMsu a b s).dryw = s.dryw := rfl
@[simp] theorem accMsu_acc (a b : Q) (s : State) : (accMsu a b s).acc = BitVec.ofInt 72 (s.acc.toInt - a.toInt * b.toInt) := rfl
@[simp] theorem accMsu_mem (a b : Q) (s : State) : (accMsu a b s).mem = s.mem := rfl
@[simp] theorem accMsu_outL (a b : Q) (s : State) : (accMsu a b s).outL = s.outL := rfl
@[simp] theorem accMsu_outR (a b : Q) (s : State) : (accMsu a b s).outR = s.outR := rfl
@[simp] theorem accMsu_outValid (a b : Q) (s : State) : (accMsu a b s).outValid = s.outValid := rfl
@[simp] theorem accMsu_rspStatus (a b : Q) (s : State) : (accMsu a b s).rspStatus = s.rspStatus := rfl
@[simp] theorem accMsu_rspData (a b : Q) (s : State) : (accMsu a b s).rspData = s.rspData := rfl
@[simp] theorem accMsu_rspValid (a b : Q) (s : State) : (accMsu a b s).rspValid = s.rspValid := rfl
@[simp] theorem accMsu_rst (a b : Q) (s : State) : (accMsu a b s).rst = s.rst := rfl
@[simp] theorem accMsu_cmdIn (a b : Q) (s : State) : (accMsu a b s).cmdIn = s.cmdIn := rfl
@[simp] theorem accMsu_frameIn (a b : Q) (s : State) : (accMsu a b s).frameIn = s.frameIn := rfl
@[simp] theorem accMsu_frameOut (a b : Q) (s : State) : (accMsu a b s).frameOut = s.frameOut := rfl
@[simp] theorem accMsu_rspOut (a b : Q) (s : State) : (accMsu a b s).rspOut = s.rspOut := rfl
@[simp] theorem accMsu_wires (a b : Q) (s : State) : (accMsu a b s).wires = s.wires := rfl
@[simp] theorem accMsu_freeCount (a b : Q) (s : State) : (accMsu a b s).freeCount = s.freeCount := rfl

/-! ### accAddq -/

@[simp] theorem accAddq_cfg (v : Q) (s : State) : (accAddq v s).cfg = s.cfg := rfl
@[simp] theorem accAddq_lpz1 (v : Q) (s : State) : (accAddq v s).lpz1 = s.lpz1 := rfl
@[simp] theorem accAddq_lpz2 (v : Q) (s : State) : (accAddq v s).lpz2 = s.lpz2 := rfl
@[simp] theorem accAddq_hpz1 (v : Q) (s : State) : (accAddq v s).hpz1 = s.hpz1 := rfl
@[simp] theorem accAddq_hpz2 (v : Q) (s : State) : (accAddq v s).hpz2 = s.hpz2 := rfl
@[simp] theorem accAddq_dz (v : Q) (s : State) : (accAddq v s).dz = s.dz := rfl
@[simp] theorem accAddq_pcur (v : Q) (s : State) : (accAddq v s).pcur = s.pcur := rfl
@[simp] theorem accAddq_ccur (v : Q) (s : State) : (accAddq v s).ccur = s.ccur := rfl
@[simp] theorem accAddq_acur (v : Q) (s : State) : (accAddq v s).acur = s.acur := rfl
@[simp] theorem accAddq_mode (v : Q) (s : State) : (accAddq v s).mode = s.mode := rfl
@[simp] theorem accAddq_fcnt (v : Q) (s : State) : (accAddq v s).fcnt = s.fcnt := rfl
@[simp] theorem accAddq_seq (v : Q) (s : State) : (accAddq v s).seq = s.seq := rfl
@[simp] theorem accAddq_idx (v : Q) (s : State) : (accAddq v s).idx = s.idx := rfl
@[simp] theorem accAddq_pTime (v : Q) (s : State) : (accAddq v s).pTime = s.pTime := rfl
@[simp] theorem accAddq_pDepth (v : Q) (s : State) : (accAddq v s).pDepth = s.pDepth := rfl
@[simp] theorem accAddq_pMix (v : Q) (s : State) : (accAddq v s).pMix = s.pMix := rfl
@[simp] theorem accAddq_fbg (v : Q) (s : State) : (accAddq v s).fbg = s.fbg := rfl
@[simp] theorem accAddq_sendg (v : Q) (s : State) : (accAddq v s).sendg = s.sendg := rfl
@[simp] theorem accAddq_wetw (v : Q) (s : State) : (accAddq v s).wetw = s.wetw := rfl
@[simp] theorem accAddq_dryw (v : Q) (s : State) : (accAddq v s).dryw = s.dryw := rfl
@[simp] theorem accAddq_acc (v : Q) (s : State) : (accAddq v s).acc = BitVec.ofInt 72 (s.acc.toInt + v.toInt * 2 ^ 24) := rfl
@[simp] theorem accAddq_mem (v : Q) (s : State) : (accAddq v s).mem = s.mem := rfl
@[simp] theorem accAddq_outL (v : Q) (s : State) : (accAddq v s).outL = s.outL := rfl
@[simp] theorem accAddq_outR (v : Q) (s : State) : (accAddq v s).outR = s.outR := rfl
@[simp] theorem accAddq_outValid (v : Q) (s : State) : (accAddq v s).outValid = s.outValid := rfl
@[simp] theorem accAddq_rspStatus (v : Q) (s : State) : (accAddq v s).rspStatus = s.rspStatus := rfl
@[simp] theorem accAddq_rspData (v : Q) (s : State) : (accAddq v s).rspData = s.rspData := rfl
@[simp] theorem accAddq_rspValid (v : Q) (s : State) : (accAddq v s).rspValid = s.rspValid := rfl
@[simp] theorem accAddq_rst (v : Q) (s : State) : (accAddq v s).rst = s.rst := rfl
@[simp] theorem accAddq_cmdIn (v : Q) (s : State) : (accAddq v s).cmdIn = s.cmdIn := rfl
@[simp] theorem accAddq_frameIn (v : Q) (s : State) : (accAddq v s).frameIn = s.frameIn := rfl
@[simp] theorem accAddq_frameOut (v : Q) (s : State) : (accAddq v s).frameOut = s.frameOut := rfl
@[simp] theorem accAddq_rspOut (v : Q) (s : State) : (accAddq v s).rspOut = s.rspOut := rfl
@[simp] theorem accAddq_wires (v : Q) (s : State) : (accAddq v s).wires = s.wires := rfl
@[simp] theorem accAddq_freeCount (v : Q) (s : State) : (accAddq v s).freeCount = s.freeCount := rfl

/-! ### gschedule -/

@[simp] theorem gschedule_cfg (s : State) : (gschedule s).cfg = s.cfg := rfl
@[simp] theorem gschedule_lpz1 (s : State) : (gschedule s).lpz1 = s.lpz1 := rfl
@[simp] theorem gschedule_lpz2 (s : State) : (gschedule s).lpz2 = s.lpz2 := rfl
@[simp] theorem gschedule_hpz1 (s : State) : (gschedule s).hpz1 = s.hpz1 := rfl
@[simp] theorem gschedule_hpz2 (s : State) : (gschedule s).hpz2 = s.hpz2 := rfl
@[simp] theorem gschedule_dz (s : State) : (gschedule s).dz = s.dz := rfl
@[simp] theorem gschedule_pcur (s : State) : (gschedule s).pcur = s.pcur := rfl
@[simp] theorem gschedule_ccur (s : State) : (gschedule s).ccur = s.ccur := rfl
@[simp] theorem gschedule_acur (s : State) : (gschedule s).acur = s.acur := rfl
@[simp] theorem gschedule_mode (s : State) : (gschedule s).mode = s.mode := rfl
@[simp] theorem gschedule_fcnt (s : State) : (gschedule s).fcnt = s.fcnt := rfl
@[simp] theorem gschedule_seq (s : State) : (gschedule s).seq = s.seq := rfl
@[simp] theorem gschedule_idx (s : State) : (gschedule s).idx = s.idx := rfl
@[simp] theorem gschedule_pTime (s : State) : (gschedule s).pTime = s.pTime := rfl
@[simp] theorem gschedule_pDepth (s : State) : (gschedule s).pDepth = s.pDepth := rfl
@[simp] theorem gschedule_pMix (s : State) : (gschedule s).pMix = s.pMix := rfl
@[simp] theorem gschedule_fbg (s : State) : (gschedule s).fbg = gainRow s.cfg s.pTime := rfl
@[simp] theorem gschedule_sendg (s : State) : (gschedule s).sendg = s.sendg := rfl
@[simp] theorem gschedule_wetw (s : State) : (gschedule s).wetw = s.wetw := rfl
@[simp] theorem gschedule_dryw (s : State) : (gschedule s).dryw = s.dryw := rfl
@[simp] theorem gschedule_acc (s : State) : (gschedule s).acc = s.acc := rfl
@[simp] theorem gschedule_mem (s : State) : (gschedule s).mem = s.mem := rfl
@[simp] theorem gschedule_outL (s : State) : (gschedule s).outL = s.outL := rfl
@[simp] theorem gschedule_outR (s : State) : (gschedule s).outR = s.outR := rfl
@[simp] theorem gschedule_outValid (s : State) : (gschedule s).outValid = s.outValid := rfl
@[simp] theorem gschedule_rspStatus (s : State) : (gschedule s).rspStatus = s.rspStatus := rfl
@[simp] theorem gschedule_rspData (s : State) : (gschedule s).rspData = s.rspData := rfl
@[simp] theorem gschedule_rspValid (s : State) : (gschedule s).rspValid = s.rspValid := rfl
@[simp] theorem gschedule_rst (s : State) : (gschedule s).rst = s.rst := rfl
@[simp] theorem gschedule_cmdIn (s : State) : (gschedule s).cmdIn = s.cmdIn := rfl
@[simp] theorem gschedule_frameIn (s : State) : (gschedule s).frameIn = s.frameIn := rfl
@[simp] theorem gschedule_frameOut (s : State) : (gschedule s).frameOut = s.frameOut := rfl
@[simp] theorem gschedule_rspOut (s : State) : (gschedule s).rspOut = s.rspOut := rfl
@[simp] theorem gschedule_wires (s : State) : (gschedule s).wires = s.wires := rfl
@[simp] theorem gschedule_freeCount (s : State) : (gschedule s).freeCount = s.freeCount := rfl

/-! ### latchBlock -/

@[simp] theorem latchBlock_cfg (s : State) : (latchBlock s).cfg = s.cfg := rfl
@[simp] theorem latchBlock_lpz1 (s : State) : (latchBlock s).lpz1 = s.lpz1 := rfl
@[simp] theorem latchBlock_lpz2 (s : State) : (latchBlock s).lpz2 = s.lpz2 := rfl
@[simp] theorem latchBlock_hpz1 (s : State) : (latchBlock s).hpz1 = s.hpz1 := rfl
@[simp] theorem latchBlock_hpz2 (s : State) : (latchBlock s).hpz2 = s.hpz2 := rfl
@[simp] theorem latchBlock_dz (s : State) : (latchBlock s).dz = s.dz := rfl
@[simp] theorem latchBlock_pcur (s : State) : (latchBlock s).pcur = s.pcur := rfl
@[simp] theorem latchBlock_ccur (s : State) : (latchBlock s).ccur = s.ccur := rfl
@[simp] theorem latchBlock_acur (s : State) : (latchBlock s).acur = s.acur := rfl
@[simp] theorem latchBlock_mode (s : State) : (latchBlock s).mode = s.mode := rfl
@[simp] theorem latchBlock_fcnt (s : State) : (latchBlock s).fcnt = s.fcnt := rfl
@[simp] theorem latchBlock_seq (s : State) : (latchBlock s).seq = s.seq := rfl
@[simp] theorem latchBlock_idx (s : State) : (latchBlock s).idx = s.idx := rfl
@[simp] theorem latchBlock_pTime (s : State) : (latchBlock s).pTime = s.pTime := rfl
@[simp] theorem latchBlock_pDepth (s : State) : (latchBlock s).pDepth = s.pDepth := rfl
@[simp] theorem latchBlock_pMix (s : State) : (latchBlock s).pMix = s.pMix := rfl
@[simp] theorem latchBlock_fbg (s : State) : (latchBlock s).fbg = gainRow s.cfg s.pTime := rfl
@[simp] theorem latchBlock_sendg (s : State) : (latchBlock s).sendg = sendGain s.pDepth := rfl
@[simp] theorem latchBlock_wetw (s : State) : (latchBlock s).wetw = wetWeight s.pMix.toInt := rfl
@[simp] theorem latchBlock_dryw (s : State) : (latchBlock s).dryw = dryWeight (wetWeight s.pMix.toInt) := rfl
@[simp] theorem latchBlock_acc (s : State) : (latchBlock s).acc = s.acc := rfl
@[simp] theorem latchBlock_mem (s : State) : (latchBlock s).mem = s.mem := rfl
@[simp] theorem latchBlock_outL (s : State) : (latchBlock s).outL = s.outL := rfl
@[simp] theorem latchBlock_outR (s : State) : (latchBlock s).outR = s.outR := rfl
@[simp] theorem latchBlock_outValid (s : State) : (latchBlock s).outValid = s.outValid := rfl
@[simp] theorem latchBlock_rspStatus (s : State) : (latchBlock s).rspStatus = s.rspStatus := rfl
@[simp] theorem latchBlock_rspData (s : State) : (latchBlock s).rspData = s.rspData := rfl
@[simp] theorem latchBlock_rspValid (s : State) : (latchBlock s).rspValid = s.rspValid := rfl
@[simp] theorem latchBlock_rst (s : State) : (latchBlock s).rst = s.rst := rfl
@[simp] theorem latchBlock_cmdIn (s : State) : (latchBlock s).cmdIn = s.cmdIn := rfl
@[simp] theorem latchBlock_frameIn (s : State) : (latchBlock s).frameIn = s.frameIn := rfl
@[simp] theorem latchBlock_frameOut (s : State) : (latchBlock s).frameOut = s.frameOut := rfl
@[simp] theorem latchBlock_rspOut (s : State) : (latchBlock s).rspOut = s.rspOut := rfl
@[simp] theorem latchBlock_wires (s : State) : (latchBlock s).wires = s.wires := rfl
@[simp] theorem latchBlock_freeCount (s : State) : (latchBlock s).freeCount = s.freeCount := rfl

/-! ### goto -/

@[simp] theorem goto_cfg (c : BitVec 5) (i : BitVec 6) (s : State) : (goto c i s).cfg = s.cfg := rfl
@[simp] theorem goto_lpz1 (c : BitVec 5) (i : BitVec 6) (s : State) : (goto c i s).lpz1 = s.lpz1 := rfl
@[simp] theorem goto_lpz2 (c : BitVec 5) (i : BitVec 6) (s : State) : (goto c i s).lpz2 = s.lpz2 := rfl
@[simp] theorem goto_hpz1 (c : BitVec 5) (i : BitVec 6) (s : State) : (goto c i s).hpz1 = s.hpz1 := rfl
@[simp] theorem goto_hpz2 (c : BitVec 5) (i : BitVec 6) (s : State) : (goto c i s).hpz2 = s.hpz2 := rfl
@[simp] theorem goto_dz (c : BitVec 5) (i : BitVec 6) (s : State) : (goto c i s).dz = s.dz := rfl
@[simp] theorem goto_pcur (c : BitVec 5) (i : BitVec 6) (s : State) : (goto c i s).pcur = s.pcur := rfl
@[simp] theorem goto_ccur (c : BitVec 5) (i : BitVec 6) (s : State) : (goto c i s).ccur = s.ccur := rfl
@[simp] theorem goto_acur (c : BitVec 5) (i : BitVec 6) (s : State) : (goto c i s).acur = s.acur := rfl
@[simp] theorem goto_mode (c : BitVec 5) (i : BitVec 6) (s : State) : (goto c i s).mode = s.mode := rfl
@[simp] theorem goto_fcnt (c : BitVec 5) (i : BitVec 6) (s : State) : (goto c i s).fcnt = s.fcnt := rfl
@[simp] theorem goto_seq (c : BitVec 5) (i : BitVec 6) (s : State) : (goto c i s).seq = c := rfl
@[simp] theorem goto_idx (c : BitVec 5) (i : BitVec 6) (s : State) : (goto c i s).idx = i := rfl
@[simp] theorem goto_pTime (c : BitVec 5) (i : BitVec 6) (s : State) : (goto c i s).pTime = s.pTime := rfl
@[simp] theorem goto_pDepth (c : BitVec 5) (i : BitVec 6) (s : State) : (goto c i s).pDepth = s.pDepth := rfl
@[simp] theorem goto_pMix (c : BitVec 5) (i : BitVec 6) (s : State) : (goto c i s).pMix = s.pMix := rfl
@[simp] theorem goto_fbg (c : BitVec 5) (i : BitVec 6) (s : State) : (goto c i s).fbg = s.fbg := rfl
@[simp] theorem goto_sendg (c : BitVec 5) (i : BitVec 6) (s : State) : (goto c i s).sendg = s.sendg := rfl
@[simp] theorem goto_wetw (c : BitVec 5) (i : BitVec 6) (s : State) : (goto c i s).wetw = s.wetw := rfl
@[simp] theorem goto_dryw (c : BitVec 5) (i : BitVec 6) (s : State) : (goto c i s).dryw = s.dryw := rfl
@[simp] theorem goto_acc (c : BitVec 5) (i : BitVec 6) (s : State) : (goto c i s).acc = s.acc := rfl
@[simp] theorem goto_mem (c : BitVec 5) (i : BitVec 6) (s : State) : (goto c i s).mem = s.mem := rfl
@[simp] theorem goto_outL (c : BitVec 5) (i : BitVec 6) (s : State) : (goto c i s).outL = s.outL := rfl
@[simp] theorem goto_outR (c : BitVec 5) (i : BitVec 6) (s : State) : (goto c i s).outR = s.outR := rfl
@[simp] theorem goto_outValid (c : BitVec 5) (i : BitVec 6) (s : State) : (goto c i s).outValid = s.outValid := rfl
@[simp] theorem goto_rspStatus (c : BitVec 5) (i : BitVec 6) (s : State) : (goto c i s).rspStatus = s.rspStatus := rfl
@[simp] theorem goto_rspData (c : BitVec 5) (i : BitVec 6) (s : State) : (goto c i s).rspData = s.rspData := rfl
@[simp] theorem goto_rspValid (c : BitVec 5) (i : BitVec 6) (s : State) : (goto c i s).rspValid = s.rspValid := rfl
@[simp] theorem goto_rst (c : BitVec 5) (i : BitVec 6) (s : State) : (goto c i s).rst = s.rst := rfl
@[simp] theorem goto_cmdIn (c : BitVec 5) (i : BitVec 6) (s : State) : (goto c i s).cmdIn = s.cmdIn := rfl
@[simp] theorem goto_frameIn (c : BitVec 5) (i : BitVec 6) (s : State) : (goto c i s).frameIn = s.frameIn := rfl
@[simp] theorem goto_frameOut (c : BitVec 5) (i : BitVec 6) (s : State) : (goto c i s).frameOut = s.frameOut := rfl
@[simp] theorem goto_rspOut (c : BitVec 5) (i : BitVec 6) (s : State) : (goto c i s).rspOut = s.rspOut := rfl
@[simp] theorem goto_wires (c : BitVec 5) (i : BitVec 6) (s : State) : (goto c i s).wires = s.wires := rfl
@[simp] theorem goto_freeCount (c : BitVec 5) (i : BitVec 6) (s : State) : (goto c i s).freeCount = s.freeCount := rfl

/-! ### setWires -/

@[simp] theorem setWires_cfg (w : Wires) (s : State) : (setWires w s).cfg = s.cfg := rfl
@[simp] theorem setWires_lpz1 (w : Wires) (s : State) : (setWires w s).lpz1 = s.lpz1 := rfl
@[simp] theorem setWires_lpz2 (w : Wires) (s : State) : (setWires w s).lpz2 = s.lpz2 := rfl
@[simp] theorem setWires_hpz1 (w : Wires) (s : State) : (setWires w s).hpz1 = s.hpz1 := rfl
@[simp] theorem setWires_hpz2 (w : Wires) (s : State) : (setWires w s).hpz2 = s.hpz2 := rfl
@[simp] theorem setWires_dz (w : Wires) (s : State) : (setWires w s).dz = s.dz := rfl
@[simp] theorem setWires_pcur (w : Wires) (s : State) : (setWires w s).pcur = s.pcur := rfl
@[simp] theorem setWires_ccur (w : Wires) (s : State) : (setWires w s).ccur = s.ccur := rfl
@[simp] theorem setWires_acur (w : Wires) (s : State) : (setWires w s).acur = s.acur := rfl
@[simp] theorem setWires_mode (w : Wires) (s : State) : (setWires w s).mode = s.mode := rfl
@[simp] theorem setWires_fcnt (w : Wires) (s : State) : (setWires w s).fcnt = s.fcnt := rfl
@[simp] theorem setWires_seq (w : Wires) (s : State) : (setWires w s).seq = s.seq := rfl
@[simp] theorem setWires_idx (w : Wires) (s : State) : (setWires w s).idx = s.idx := rfl
@[simp] theorem setWires_pTime (w : Wires) (s : State) : (setWires w s).pTime = s.pTime := rfl
@[simp] theorem setWires_pDepth (w : Wires) (s : State) : (setWires w s).pDepth = s.pDepth := rfl
@[simp] theorem setWires_pMix (w : Wires) (s : State) : (setWires w s).pMix = s.pMix := rfl
@[simp] theorem setWires_fbg (w : Wires) (s : State) : (setWires w s).fbg = s.fbg := rfl
@[simp] theorem setWires_sendg (w : Wires) (s : State) : (setWires w s).sendg = s.sendg := rfl
@[simp] theorem setWires_wetw (w : Wires) (s : State) : (setWires w s).wetw = s.wetw := rfl
@[simp] theorem setWires_dryw (w : Wires) (s : State) : (setWires w s).dryw = s.dryw := rfl
@[simp] theorem setWires_acc (w : Wires) (s : State) : (setWires w s).acc = s.acc := rfl
@[simp] theorem setWires_mem (w : Wires) (s : State) : (setWires w s).mem = s.mem := rfl
@[simp] theorem setWires_outL (w : Wires) (s : State) : (setWires w s).outL = s.outL := rfl
@[simp] theorem setWires_outR (w : Wires) (s : State) : (setWires w s).outR = s.outR := rfl
@[simp] theorem setWires_outValid (w : Wires) (s : State) : (setWires w s).outValid = s.outValid := rfl
@[simp] theorem setWires_rspStatus (w : Wires) (s : State) : (setWires w s).rspStatus = s.rspStatus := rfl
@[simp] theorem setWires_rspData (w : Wires) (s : State) : (setWires w s).rspData = s.rspData := rfl
@[simp] theorem setWires_rspValid (w : Wires) (s : State) : (setWires w s).rspValid = s.rspValid := rfl
@[simp] theorem setWires_rst (w : Wires) (s : State) : (setWires w s).rst = s.rst := rfl
@[simp] theorem setWires_cmdIn (w : Wires) (s : State) : (setWires w s).cmdIn = s.cmdIn := rfl
@[simp] theorem setWires_frameIn (w : Wires) (s : State) : (setWires w s).frameIn = s.frameIn := rfl
@[simp] theorem setWires_frameOut (w : Wires) (s : State) : (setWires w s).frameOut = s.frameOut := rfl
@[simp] theorem setWires_rspOut (w : Wires) (s : State) : (setWires w s).rspOut = s.rspOut := rfl
@[simp] theorem setWires_wires (w : Wires) (s : State) : (setWires w s).wires = w := rfl
@[simp] theorem setWires_freeCount (w : Wires) (s : State) : (setWires w s).freeCount = s.freeCount := rfl

/-! ### respond -/

@[simp] theorem respond_cfg (st : BitVec 4) (d : BitVec 32) (s : State) : (respond st d s).cfg = s.cfg := rfl
@[simp] theorem respond_lpz1 (st : BitVec 4) (d : BitVec 32) (s : State) : (respond st d s).lpz1 = s.lpz1 := rfl
@[simp] theorem respond_lpz2 (st : BitVec 4) (d : BitVec 32) (s : State) : (respond st d s).lpz2 = s.lpz2 := rfl
@[simp] theorem respond_hpz1 (st : BitVec 4) (d : BitVec 32) (s : State) : (respond st d s).hpz1 = s.hpz1 := rfl
@[simp] theorem respond_hpz2 (st : BitVec 4) (d : BitVec 32) (s : State) : (respond st d s).hpz2 = s.hpz2 := rfl
@[simp] theorem respond_dz (st : BitVec 4) (d : BitVec 32) (s : State) : (respond st d s).dz = s.dz := rfl
@[simp] theorem respond_pcur (st : BitVec 4) (d : BitVec 32) (s : State) : (respond st d s).pcur = s.pcur := rfl
@[simp] theorem respond_ccur (st : BitVec 4) (d : BitVec 32) (s : State) : (respond st d s).ccur = s.ccur := rfl
@[simp] theorem respond_acur (st : BitVec 4) (d : BitVec 32) (s : State) : (respond st d s).acur = s.acur := rfl
@[simp] theorem respond_mode (st : BitVec 4) (d : BitVec 32) (s : State) : (respond st d s).mode = s.mode := rfl
@[simp] theorem respond_fcnt (st : BitVec 4) (d : BitVec 32) (s : State) : (respond st d s).fcnt = s.fcnt := rfl
@[simp] theorem respond_seq (st : BitVec 4) (d : BitVec 32) (s : State) : (respond st d s).seq = s.seq := rfl
@[simp] theorem respond_idx (st : BitVec 4) (d : BitVec 32) (s : State) : (respond st d s).idx = s.idx := rfl
@[simp] theorem respond_pTime (st : BitVec 4) (d : BitVec 32) (s : State) : (respond st d s).pTime = s.pTime := rfl
@[simp] theorem respond_pDepth (st : BitVec 4) (d : BitVec 32) (s : State) : (respond st d s).pDepth = s.pDepth := rfl
@[simp] theorem respond_pMix (st : BitVec 4) (d : BitVec 32) (s : State) : (respond st d s).pMix = s.pMix := rfl
@[simp] theorem respond_fbg (st : BitVec 4) (d : BitVec 32) (s : State) : (respond st d s).fbg = s.fbg := rfl
@[simp] theorem respond_sendg (st : BitVec 4) (d : BitVec 32) (s : State) : (respond st d s).sendg = s.sendg := rfl
@[simp] theorem respond_wetw (st : BitVec 4) (d : BitVec 32) (s : State) : (respond st d s).wetw = s.wetw := rfl
@[simp] theorem respond_dryw (st : BitVec 4) (d : BitVec 32) (s : State) : (respond st d s).dryw = s.dryw := rfl
@[simp] theorem respond_acc (st : BitVec 4) (d : BitVec 32) (s : State) : (respond st d s).acc = s.acc := rfl
@[simp] theorem respond_mem (st : BitVec 4) (d : BitVec 32) (s : State) : (respond st d s).mem = s.mem := rfl
@[simp] theorem respond_outL (st : BitVec 4) (d : BitVec 32) (s : State) : (respond st d s).outL = s.outL := rfl
@[simp] theorem respond_outR (st : BitVec 4) (d : BitVec 32) (s : State) : (respond st d s).outR = s.outR := rfl
@[simp] theorem respond_outValid (st : BitVec 4) (d : BitVec 32) (s : State) : (respond st d s).outValid = s.outValid := rfl
@[simp] theorem respond_rspStatus (st : BitVec 4) (d : BitVec 32) (s : State) : (respond st d s).rspStatus = st := rfl
@[simp] theorem respond_rspData (st : BitVec 4) (d : BitVec 32) (s : State) : (respond st d s).rspData = d := rfl
@[simp] theorem respond_rspValid (st : BitVec 4) (d : BitVec 32) (s : State) : (respond st d s).rspValid = true := rfl
@[simp] theorem respond_rst (st : BitVec 4) (d : BitVec 32) (s : State) : (respond st d s).rst = s.rst := rfl
@[simp] theorem respond_cmdIn (st : BitVec 4) (d : BitVec 32) (s : State) : (respond st d s).cmdIn = s.cmdIn := rfl
@[simp] theorem respond_frameIn (st : BitVec 4) (d : BitVec 32) (s : State) : (respond st d s).frameIn = s.frameIn := rfl
@[simp] theorem respond_frameOut (st : BitVec 4) (d : BitVec 32) (s : State) : (respond st d s).frameOut = s.frameOut := rfl
@[simp] theorem respond_rspOut (st : BitVec 4) (d : BitVec 32) (s : State) : (respond st d s).rspOut = s.rspOut ++ [⟨st, d⟩] := rfl
@[simp] theorem respond_wires (st : BitVec 4) (d : BitVec 32) (s : State) : (respond st d s).wires = s.wires := rfl
@[simp] theorem respond_freeCount (st : BitVec 4) (d : BitVec 32) (s : State) : (respond st d s).freeCount = s.freeCount := rfl

/-! ### giveFrame -/

@[simp] theorem giveFrame_cfg (f : Frame) (s : State) : (giveFrame f s).cfg = s.cfg := rfl
@[simp] theorem giveFrame_lpz1 (f : Frame) (s : State) : (giveFrame f s).lpz1 = s.lpz1 := rfl
@[simp] theorem giveFrame_lpz2 (f : Frame) (s : State) : (giveFrame f s).lpz2 = s.lpz2 := rfl
@[simp] theorem giveFrame_hpz1 (f : Frame) (s : State) : (giveFrame f s).hpz1 = s.hpz1 := rfl
@[simp] theorem giveFrame_hpz2 (f : Frame) (s : State) : (giveFrame f s).hpz2 = s.hpz2 := rfl
@[simp] theorem giveFrame_dz (f : Frame) (s : State) : (giveFrame f s).dz = s.dz := rfl
@[simp] theorem giveFrame_pcur (f : Frame) (s : State) : (giveFrame f s).pcur = s.pcur := rfl
@[simp] theorem giveFrame_ccur (f : Frame) (s : State) : (giveFrame f s).ccur = s.ccur := rfl
@[simp] theorem giveFrame_acur (f : Frame) (s : State) : (giveFrame f s).acur = s.acur := rfl
@[simp] theorem giveFrame_mode (f : Frame) (s : State) : (giveFrame f s).mode = s.mode := rfl
@[simp] theorem giveFrame_fcnt (f : Frame) (s : State) : (giveFrame f s).fcnt = s.fcnt := rfl
@[simp] theorem giveFrame_seq (f : Frame) (s : State) : (giveFrame f s).seq = s.seq := rfl
@[simp] theorem giveFrame_idx (f : Frame) (s : State) : (giveFrame f s).idx = s.idx := rfl
@[simp] theorem giveFrame_pTime (f : Frame) (s : State) : (giveFrame f s).pTime = s.pTime := rfl
@[simp] theorem giveFrame_pDepth (f : Frame) (s : State) : (giveFrame f s).pDepth = s.pDepth := rfl
@[simp] theorem giveFrame_pMix (f : Frame) (s : State) : (giveFrame f s).pMix = s.pMix := rfl
@[simp] theorem giveFrame_fbg (f : Frame) (s : State) : (giveFrame f s).fbg = s.fbg := rfl
@[simp] theorem giveFrame_sendg (f : Frame) (s : State) : (giveFrame f s).sendg = s.sendg := rfl
@[simp] theorem giveFrame_wetw (f : Frame) (s : State) : (giveFrame f s).wetw = s.wetw := rfl
@[simp] theorem giveFrame_dryw (f : Frame) (s : State) : (giveFrame f s).dryw = s.dryw := rfl
@[simp] theorem giveFrame_acc (f : Frame) (s : State) : (giveFrame f s).acc = s.acc := rfl
@[simp] theorem giveFrame_mem (f : Frame) (s : State) : (giveFrame f s).mem = s.mem := rfl
@[simp] theorem giveFrame_outL (f : Frame) (s : State) : (giveFrame f s).outL = f.l := rfl
@[simp] theorem giveFrame_outR (f : Frame) (s : State) : (giveFrame f s).outR = f.r := rfl
@[simp] theorem giveFrame_outValid (f : Frame) (s : State) : (giveFrame f s).outValid = true := rfl
@[simp] theorem giveFrame_rspStatus (f : Frame) (s : State) : (giveFrame f s).rspStatus = s.rspStatus := rfl
@[simp] theorem giveFrame_rspData (f : Frame) (s : State) : (giveFrame f s).rspData = s.rspData := rfl
@[simp] theorem giveFrame_rspValid (f : Frame) (s : State) : (giveFrame f s).rspValid = s.rspValid := rfl
@[simp] theorem giveFrame_rst (f : Frame) (s : State) : (giveFrame f s).rst = s.rst := rfl
@[simp] theorem giveFrame_cmdIn (f : Frame) (s : State) : (giveFrame f s).cmdIn = s.cmdIn := rfl
@[simp] theorem giveFrame_frameIn (f : Frame) (s : State) : (giveFrame f s).frameIn = s.frameIn := rfl
@[simp] theorem giveFrame_frameOut (f : Frame) (s : State) : (giveFrame f s).frameOut = s.frameOut ++ [f] := rfl
@[simp] theorem giveFrame_rspOut (f : Frame) (s : State) : (giveFrame f s).rspOut = s.rspOut := rfl
@[simp] theorem giveFrame_wires (f : Frame) (s : State) : (giveFrame f s).wires = s.wires := rfl
@[simp] theorem giveFrame_freeCount (f : Frame) (s : State) : (giveFrame f s).freeCount = s.freeCount := rfl

/-! ### lowerStrobes -/

@[simp] theorem lowerStrobes_cfg (s : State) : (lowerStrobes s).cfg = s.cfg := rfl
@[simp] theorem lowerStrobes_lpz1 (s : State) : (lowerStrobes s).lpz1 = s.lpz1 := rfl
@[simp] theorem lowerStrobes_lpz2 (s : State) : (lowerStrobes s).lpz2 = s.lpz2 := rfl
@[simp] theorem lowerStrobes_hpz1 (s : State) : (lowerStrobes s).hpz1 = s.hpz1 := rfl
@[simp] theorem lowerStrobes_hpz2 (s : State) : (lowerStrobes s).hpz2 = s.hpz2 := rfl
@[simp] theorem lowerStrobes_dz (s : State) : (lowerStrobes s).dz = s.dz := rfl
@[simp] theorem lowerStrobes_pcur (s : State) : (lowerStrobes s).pcur = s.pcur := rfl
@[simp] theorem lowerStrobes_ccur (s : State) : (lowerStrobes s).ccur = s.ccur := rfl
@[simp] theorem lowerStrobes_acur (s : State) : (lowerStrobes s).acur = s.acur := rfl
@[simp] theorem lowerStrobes_mode (s : State) : (lowerStrobes s).mode = s.mode := rfl
@[simp] theorem lowerStrobes_fcnt (s : State) : (lowerStrobes s).fcnt = s.fcnt := rfl
@[simp] theorem lowerStrobes_seq (s : State) : (lowerStrobes s).seq = s.seq := rfl
@[simp] theorem lowerStrobes_idx (s : State) : (lowerStrobes s).idx = s.idx := rfl
@[simp] theorem lowerStrobes_pTime (s : State) : (lowerStrobes s).pTime = s.pTime := rfl
@[simp] theorem lowerStrobes_pDepth (s : State) : (lowerStrobes s).pDepth = s.pDepth := rfl
@[simp] theorem lowerStrobes_pMix (s : State) : (lowerStrobes s).pMix = s.pMix := rfl
@[simp] theorem lowerStrobes_fbg (s : State) : (lowerStrobes s).fbg = s.fbg := rfl
@[simp] theorem lowerStrobes_sendg (s : State) : (lowerStrobes s).sendg = s.sendg := rfl
@[simp] theorem lowerStrobes_wetw (s : State) : (lowerStrobes s).wetw = s.wetw := rfl
@[simp] theorem lowerStrobes_dryw (s : State) : (lowerStrobes s).dryw = s.dryw := rfl
@[simp] theorem lowerStrobes_acc (s : State) : (lowerStrobes s).acc = s.acc := rfl
@[simp] theorem lowerStrobes_mem (s : State) : (lowerStrobes s).mem = s.mem := rfl
@[simp] theorem lowerStrobes_outL (s : State) : (lowerStrobes s).outL = s.outL := rfl
@[simp] theorem lowerStrobes_outR (s : State) : (lowerStrobes s).outR = s.outR := rfl
@[simp] theorem lowerStrobes_outValid (s : State) : (lowerStrobes s).outValid = false := rfl
@[simp] theorem lowerStrobes_rspStatus (s : State) : (lowerStrobes s).rspStatus = s.rspStatus := rfl
@[simp] theorem lowerStrobes_rspData (s : State) : (lowerStrobes s).rspData = s.rspData := rfl
@[simp] theorem lowerStrobes_rspValid (s : State) : (lowerStrobes s).rspValid = false := rfl
@[simp] theorem lowerStrobes_rst (s : State) : (lowerStrobes s).rst = s.rst := rfl
@[simp] theorem lowerStrobes_cmdIn (s : State) : (lowerStrobes s).cmdIn = s.cmdIn := rfl
@[simp] theorem lowerStrobes_frameIn (s : State) : (lowerStrobes s).frameIn = s.frameIn := rfl
@[simp] theorem lowerStrobes_frameOut (s : State) : (lowerStrobes s).frameOut = s.frameOut := rfl
@[simp] theorem lowerStrobes_rspOut (s : State) : (lowerStrobes s).rspOut = s.rspOut := rfl
@[simp] theorem lowerStrobes_wires (s : State) : (lowerStrobes s).wires = s.wires := rfl
@[simp] theorem lowerStrobes_freeCount (s : State) : (lowerStrobes s).freeCount = s.freeCount := rfl

/-! ### setTap, accSt and setCursor: the registers they cannot touch -/

@[simp] theorem setTap_cfg (t : Tap) (v : QA) (s : State) : (setTap t v s).cfg = s.cfg := by cases t <;> rfl
@[simp] theorem accSt_cfg (t : Tap) (s : State) : (accSt t s).cfg = s.cfg := setTap_cfg t s.acc s
@[simp] theorem setTap_pcur (t : Tap) (v : QA) (s : State) : (setTap t v s).pcur = s.pcur := by cases t <;> rfl
@[simp] theorem accSt_pcur (t : Tap) (s : State) : (accSt t s).pcur = s.pcur := setTap_pcur t s.acc s
@[simp] theorem setTap_ccur (t : Tap) (v : QA) (s : State) : (setTap t v s).ccur = s.ccur := by cases t <;> rfl
@[simp] theorem accSt_ccur (t : Tap) (s : State) : (accSt t s).ccur = s.ccur := setTap_ccur t s.acc s
@[simp] theorem setTap_acur (t : Tap) (v : QA) (s : State) : (setTap t v s).acur = s.acur := by cases t <;> rfl
@[simp] theorem accSt_acur (t : Tap) (s : State) : (accSt t s).acur = s.acur := setTap_acur t s.acc s
@[simp] theorem setTap_mode (t : Tap) (v : QA) (s : State) : (setTap t v s).mode = s.mode := by cases t <;> rfl
@[simp] theorem accSt_mode (t : Tap) (s : State) : (accSt t s).mode = s.mode := setTap_mode t s.acc s
@[simp] theorem setTap_fcnt (t : Tap) (v : QA) (s : State) : (setTap t v s).fcnt = s.fcnt := by cases t <;> rfl
@[simp] theorem accSt_fcnt (t : Tap) (s : State) : (accSt t s).fcnt = s.fcnt := setTap_fcnt t s.acc s
@[simp] theorem setTap_seq (t : Tap) (v : QA) (s : State) : (setTap t v s).seq = s.seq := by cases t <;> rfl
@[simp] theorem accSt_seq (t : Tap) (s : State) : (accSt t s).seq = s.seq := setTap_seq t s.acc s
@[simp] theorem setTap_idx (t : Tap) (v : QA) (s : State) : (setTap t v s).idx = s.idx := by cases t <;> rfl
@[simp] theorem accSt_idx (t : Tap) (s : State) : (accSt t s).idx = s.idx := setTap_idx t s.acc s
@[simp] theorem setTap_pTime (t : Tap) (v : QA) (s : State) : (setTap t v s).pTime = s.pTime := by cases t <;> rfl
@[simp] theorem accSt_pTime (t : Tap) (s : State) : (accSt t s).pTime = s.pTime := setTap_pTime t s.acc s
@[simp] theorem setTap_pDepth (t : Tap) (v : QA) (s : State) : (setTap t v s).pDepth = s.pDepth := by cases t <;> rfl
@[simp] theorem accSt_pDepth (t : Tap) (s : State) : (accSt t s).pDepth = s.pDepth := setTap_pDepth t s.acc s
@[simp] theorem setTap_pMix (t : Tap) (v : QA) (s : State) : (setTap t v s).pMix = s.pMix := by cases t <;> rfl
@[simp] theorem accSt_pMix (t : Tap) (s : State) : (accSt t s).pMix = s.pMix := setTap_pMix t s.acc s
@[simp] theorem setTap_fbg (t : Tap) (v : QA) (s : State) : (setTap t v s).fbg = s.fbg := by cases t <;> rfl
@[simp] theorem accSt_fbg (t : Tap) (s : State) : (accSt t s).fbg = s.fbg := setTap_fbg t s.acc s
@[simp] theorem setTap_sendg (t : Tap) (v : QA) (s : State) : (setTap t v s).sendg = s.sendg := by cases t <;> rfl
@[simp] theorem accSt_sendg (t : Tap) (s : State) : (accSt t s).sendg = s.sendg := setTap_sendg t s.acc s
@[simp] theorem setTap_wetw (t : Tap) (v : QA) (s : State) : (setTap t v s).wetw = s.wetw := by cases t <;> rfl
@[simp] theorem accSt_wetw (t : Tap) (s : State) : (accSt t s).wetw = s.wetw := setTap_wetw t s.acc s
@[simp] theorem setTap_dryw (t : Tap) (v : QA) (s : State) : (setTap t v s).dryw = s.dryw := by cases t <;> rfl
@[simp] theorem accSt_dryw (t : Tap) (s : State) : (accSt t s).dryw = s.dryw := setTap_dryw t s.acc s
@[simp] theorem setTap_acc (t : Tap) (v : QA) (s : State) : (setTap t v s).acc = s.acc := by cases t <;> rfl
@[simp] theorem accSt_acc (t : Tap) (s : State) : (accSt t s).acc = s.acc := setTap_acc t s.acc s
@[simp] theorem setTap_mem (t : Tap) (v : QA) (s : State) : (setTap t v s).mem = s.mem := by cases t <;> rfl
@[simp] theorem accSt_mem (t : Tap) (s : State) : (accSt t s).mem = s.mem := setTap_mem t s.acc s
@[simp] theorem setTap_outL (t : Tap) (v : QA) (s : State) : (setTap t v s).outL = s.outL := by cases t <;> rfl
@[simp] theorem accSt_outL (t : Tap) (s : State) : (accSt t s).outL = s.outL := setTap_outL t s.acc s
@[simp] theorem setTap_outR (t : Tap) (v : QA) (s : State) : (setTap t v s).outR = s.outR := by cases t <;> rfl
@[simp] theorem accSt_outR (t : Tap) (s : State) : (accSt t s).outR = s.outR := setTap_outR t s.acc s
@[simp] theorem setTap_outValid (t : Tap) (v : QA) (s : State) : (setTap t v s).outValid = s.outValid := by cases t <;> rfl
@[simp] theorem accSt_outValid (t : Tap) (s : State) : (accSt t s).outValid = s.outValid := setTap_outValid t s.acc s
@[simp] theorem setTap_rspStatus (t : Tap) (v : QA) (s : State) : (setTap t v s).rspStatus = s.rspStatus := by cases t <;> rfl
@[simp] theorem accSt_rspStatus (t : Tap) (s : State) : (accSt t s).rspStatus = s.rspStatus := setTap_rspStatus t s.acc s
@[simp] theorem setTap_rspData (t : Tap) (v : QA) (s : State) : (setTap t v s).rspData = s.rspData := by cases t <;> rfl
@[simp] theorem accSt_rspData (t : Tap) (s : State) : (accSt t s).rspData = s.rspData := setTap_rspData t s.acc s
@[simp] theorem setTap_rspValid (t : Tap) (v : QA) (s : State) : (setTap t v s).rspValid = s.rspValid := by cases t <;> rfl
@[simp] theorem accSt_rspValid (t : Tap) (s : State) : (accSt t s).rspValid = s.rspValid := setTap_rspValid t s.acc s
@[simp] theorem setTap_rst (t : Tap) (v : QA) (s : State) : (setTap t v s).rst = s.rst := by cases t <;> rfl
@[simp] theorem accSt_rst (t : Tap) (s : State) : (accSt t s).rst = s.rst := setTap_rst t s.acc s
@[simp] theorem setTap_cmdIn (t : Tap) (v : QA) (s : State) : (setTap t v s).cmdIn = s.cmdIn := by cases t <;> rfl
@[simp] theorem accSt_cmdIn (t : Tap) (s : State) : (accSt t s).cmdIn = s.cmdIn := setTap_cmdIn t s.acc s
@[simp] theorem setTap_frameIn (t : Tap) (v : QA) (s : State) : (setTap t v s).frameIn = s.frameIn := by cases t <;> rfl
@[simp] theorem accSt_frameIn (t : Tap) (s : State) : (accSt t s).frameIn = s.frameIn := setTap_frameIn t s.acc s
@[simp] theorem setTap_frameOut (t : Tap) (v : QA) (s : State) : (setTap t v s).frameOut = s.frameOut := by cases t <;> rfl
@[simp] theorem accSt_frameOut (t : Tap) (s : State) : (accSt t s).frameOut = s.frameOut := setTap_frameOut t s.acc s
@[simp] theorem setTap_rspOut (t : Tap) (v : QA) (s : State) : (setTap t v s).rspOut = s.rspOut := by cases t <;> rfl
@[simp] theorem accSt_rspOut (t : Tap) (s : State) : (accSt t s).rspOut = s.rspOut := setTap_rspOut t s.acc s
@[simp] theorem setTap_wires (t : Tap) (v : QA) (s : State) : (setTap t v s).wires = s.wires := by cases t <;> rfl
@[simp] theorem accSt_wires (t : Tap) (s : State) : (accSt t s).wires = s.wires := setTap_wires t s.acc s
@[simp] theorem setTap_freeCount (t : Tap) (v : QA) (s : State) : (setTap t v s).freeCount = s.freeCount := by cases t <;> rfl
@[simp] theorem accSt_freeCount (t : Tap) (s : State) : (accSt t s).freeCount = s.freeCount := setTap_freeCount t s.acc s

@[simp] theorem setCursor_cfg (l : LineId) (v : Nat) (s : State) : (setCursor l v s).cfg = s.cfg := by cases l <;> rfl
@[simp] theorem setCursor_lpz1 (l : LineId) (v : Nat) (s : State) : (setCursor l v s).lpz1 = s.lpz1 := by cases l <;> rfl
@[simp] theorem setCursor_lpz2 (l : LineId) (v : Nat) (s : State) : (setCursor l v s).lpz2 = s.lpz2 := by cases l <;> rfl
@[simp] theorem setCursor_hpz1 (l : LineId) (v : Nat) (s : State) : (setCursor l v s).hpz1 = s.hpz1 := by cases l <;> rfl
@[simp] theorem setCursor_hpz2 (l : LineId) (v : Nat) (s : State) : (setCursor l v s).hpz2 = s.hpz2 := by cases l <;> rfl
@[simp] theorem setCursor_dz (l : LineId) (v : Nat) (s : State) : (setCursor l v s).dz = s.dz := by cases l <;> rfl
@[simp] theorem setCursor_mode (l : LineId) (v : Nat) (s : State) : (setCursor l v s).mode = s.mode := by cases l <;> rfl
@[simp] theorem setCursor_fcnt (l : LineId) (v : Nat) (s : State) : (setCursor l v s).fcnt = s.fcnt := by cases l <;> rfl
@[simp] theorem setCursor_seq (l : LineId) (v : Nat) (s : State) : (setCursor l v s).seq = s.seq := by cases l <;> rfl
@[simp] theorem setCursor_idx (l : LineId) (v : Nat) (s : State) : (setCursor l v s).idx = s.idx := by cases l <;> rfl
@[simp] theorem setCursor_pTime (l : LineId) (v : Nat) (s : State) : (setCursor l v s).pTime = s.pTime := by cases l <;> rfl
@[simp] theorem setCursor_pDepth (l : LineId) (v : Nat) (s : State) : (setCursor l v s).pDepth = s.pDepth := by cases l <;> rfl
@[simp] theorem setCursor_pMix (l : LineId) (v : Nat) (s : State) : (setCursor l v s).pMix = s.pMix := by cases l <;> rfl
@[simp] theorem setCursor_fbg (l : LineId) (v : Nat) (s : State) : (setCursor l v s).fbg = s.fbg := by cases l <;> rfl
@[simp] theorem setCursor_sendg (l : LineId) (v : Nat) (s : State) : (setCursor l v s).sendg = s.sendg := by cases l <;> rfl
@[simp] theorem setCursor_wetw (l : LineId) (v : Nat) (s : State) : (setCursor l v s).wetw = s.wetw := by cases l <;> rfl
@[simp] theorem setCursor_dryw (l : LineId) (v : Nat) (s : State) : (setCursor l v s).dryw = s.dryw := by cases l <;> rfl
@[simp] theorem setCursor_acc (l : LineId) (v : Nat) (s : State) : (setCursor l v s).acc = s.acc := by cases l <;> rfl
@[simp] theorem setCursor_mem (l : LineId) (v : Nat) (s : State) : (setCursor l v s).mem = s.mem := by cases l <;> rfl
@[simp] theorem setCursor_outL (l : LineId) (v : Nat) (s : State) : (setCursor l v s).outL = s.outL := by cases l <;> rfl
@[simp] theorem setCursor_outR (l : LineId) (v : Nat) (s : State) : (setCursor l v s).outR = s.outR := by cases l <;> rfl
@[simp] theorem setCursor_outValid (l : LineId) (v : Nat) (s : State) : (setCursor l v s).outValid = s.outValid := by cases l <;> rfl
@[simp] theorem setCursor_rspStatus (l : LineId) (v : Nat) (s : State) : (setCursor l v s).rspStatus = s.rspStatus := by cases l <;> rfl
@[simp] theorem setCursor_rspData (l : LineId) (v : Nat) (s : State) : (setCursor l v s).rspData = s.rspData := by cases l <;> rfl
@[simp] theorem setCursor_rspValid (l : LineId) (v : Nat) (s : State) : (setCursor l v s).rspValid = s.rspValid := by cases l <;> rfl
@[simp] theorem setCursor_rst (l : LineId) (v : Nat) (s : State) : (setCursor l v s).rst = s.rst := by cases l <;> rfl
@[simp] theorem setCursor_cmdIn (l : LineId) (v : Nat) (s : State) : (setCursor l v s).cmdIn = s.cmdIn := by cases l <;> rfl
@[simp] theorem setCursor_frameIn (l : LineId) (v : Nat) (s : State) : (setCursor l v s).frameIn = s.frameIn := by cases l <;> rfl
@[simp] theorem setCursor_frameOut (l : LineId) (v : Nat) (s : State) : (setCursor l v s).frameOut = s.frameOut := by cases l <;> rfl
@[simp] theorem setCursor_rspOut (l : LineId) (v : Nat) (s : State) : (setCursor l v s).rspOut = s.rspOut := by cases l <;> rfl
@[simp] theorem setCursor_wires (l : LineId) (v : Nat) (s : State) : (setCursor l v s).wires = s.wires := by cases l <;> rfl
@[simp] theorem setCursor_freeCount (l : LineId) (v : Nat) (s : State) : (setCursor l v s).freeCount = s.freeCount := by cases l <;> rfl

end Sys2Proof.Machine
end

