-- ==== Sys2Proof/Laws/Memory.lean ====
section
/-! SUPPORT. The laws of DMEM: what a word reads as after each memory operation, that each operation keeps the canonical
form, and which addresses a memory can list after it. -/

namespace Sys2Proof.Machine

theorem Memory.wfFrom_mono {lo hi : Nat} {m : Memory} (h : Memory.wfFrom hi m = true) (hle : lo ≤ hi) :
    Memory.wfFrom lo m = true := by
  cases m with
  | nil => rfl
  | cons c m =>
    obtain ⟨b, w⟩ := c
    simp only [Memory.wfFrom, Bool.and_eq_true, decide_eq_true_eq] at h ⊢
    exact ⟨⟨le_trans hle h.1.1, h.1.2⟩, h.2⟩

/-- Below the first address a canonical memory reads as blank. -/
theorem Memory.read_below {lo : Nat} {m : Memory} (h : Memory.wfFrom lo m = true) {a : Nat} (ha : a < lo) :
    m.read a = Memory.blank := by
  induction m generalizing lo with
  | nil => rfl
  | cons c m ih =>
    obtain ⟨b, w⟩ := c
    simp only [Memory.wfFrom, Bool.and_eq_true, decide_eq_true_eq] at h
    have hb : a ≠ b := by omega
    simp only [Memory.read, hb, if_false]
    exact ih h.2 (by omega)

/-- A write puts the word there and leaves every other word alone. -/
theorem Memory.read_write {lo : Nat} {m : Memory} (h : Memory.wfFrom lo m = true) (a b : Nat) (v : Q) :
    (m.write a v).read b = if b = a then v else m.read b := by
  induction m generalizing lo with
  | nil =>
    by_cases hv : v = Memory.blank <;> by_cases hb : b = a <;> simp [Memory.write, Memory.read, hv, hb]
  | cons c m ih =>
    obtain ⟨x, w⟩ := c
    simp only [Memory.wfFrom, Bool.and_eq_true, decide_eq_true_eq] at h
    have htail := h.2
    have hrec := ih htail
    have hblank : ∀ y, y < x + 1 → Memory.read m y = Memory.blank := fun y hy => Memory.read_below htail hy
    unfold Memory.write
    by_cases h1 : a < x
    · have hax : a ≠ x := by omega
      by_cases hv : v = Memory.blank
      · by_cases hb : b = a
        · subst hb; simp [h1, hv, Memory.read, hax, hblank b (by omega)]
        · simp [h1, hv, hb]
      · by_cases hb : b = a
        · subst hb; simp [h1, hv, Memory.read]
        · simp [h1, hv, Memory.read, hb]
    · by_cases h2 : a = x
      · subst h2
        by_cases hv : v = Memory.blank
        · by_cases hb : b = a
          · subst hb; simp [hv, hblank b (by omega)]
          · simp [hv, hb, Memory.read]
        · by_cases hb : b = a <;> simp [hv, hb, Memory.read]
      · by_cases hb : b = x
        · subst hb
          have : b ≠ a := fun e => h2 e.symm
          simp [h1, h2, Memory.read, this]
        · simp [h1, h2, Memory.read, hb, hrec]

theorem Memory.wfFrom_write {lo : Nat} {m : Memory} (h : Memory.wfFrom lo m = true) {a : Nat} (ha : lo ≤ a) (v : Q) :
    Memory.wfFrom lo (m.write a v) = true := by
  induction m generalizing lo with
  | nil =>
    by_cases hv : v = Memory.blank <;> simp [Memory.write, Memory.wfFrom, hv, ha]
  | cons c m ih =>
    obtain ⟨x, w⟩ := c
    have h0 := h
    simp only [Memory.wfFrom, Bool.and_eq_true, decide_eq_true_eq, bne_iff_ne] at h
    obtain ⟨⟨hx, hw⟩, ht⟩ := h
    unfold Memory.write
    by_cases h1 : a < x
    · by_cases hv : v = Memory.blank
      · simpa [h1, hv] using h0
      · simp [h1, hv, Memory.wfFrom, ha, hw, ht, Nat.succ_le_of_lt h1]
    · by_cases h2 : a = x
      · subst h2
        by_cases hv : v = Memory.blank
        · simpa [hv] using Memory.wfFrom_mono ht (by omega)
        · simp [hv, Memory.wfFrom, hx, ht]
      · simp only [h1, h2, if_false, Memory.wfFrom, Bool.and_eq_true, decide_eq_true_eq, bne_iff_ne]
        exact ⟨⟨hx, hw⟩, ih ht (by omega)⟩

/-- A write keeps the canonical form. -/
theorem Memory.wf_write {m : Memory} (h : m.wf = true) (a : Nat) (v : Q) : (m.write a v).wf = true :=
  Memory.wfFrom_write h (Nat.zero_le a) v

/-- A write lists at most one address more. -/
theorem Memory.mem_write {m : Memory} {a : Nat} {v : Q} {c : Cell} (h : c ∈ m.write a v) : c ∈ m ∨ c.1 = a := by
  induction m with
  | nil =>
    by_cases hv : v = Memory.blank <;> simp [Memory.write, hv] at h
    right; simp [h]
  | cons d m ih =>
    obtain ⟨x, w⟩ := d
    unfold Memory.write at h
    by_cases h1 : a < x
    · by_cases hv : v = Memory.blank
      · simp [h1, hv] at h; simpa using Or.inl h
      · simp [h1, hv] at h
        rcases h with h | h | h <;> simp [h]
    · by_cases h2 : a = x
      · by_cases hv : v = Memory.blank
        · simp [h2, hv] at h; exact .inl (List.mem_cons_of_mem _ h)
        · simp [h2, hv] at h
          rcases h with h | h
          · right; simp [h, h2]
          · exact .inl (List.mem_cons_of_mem _ h)
      · simp only [h1, h2, if_false, List.mem_cons] at h
        rcases h with h | h
        · exact .inl (by simp [h])
        · rcases ih h with h | h
          · exact .inl (List.mem_cons_of_mem _ h)
          · exact .inr h

/-- Dropping the words below `n` reads as blank there and as before elsewhere. -/
theorem Memory.read_clear (m : Memory) (n a : Nat) :
    (m.clear n).read a = if a < n then Memory.blank else m.read a := by
  induction m with
  | nil => simp [Memory.clear, Memory.read]
  | cons c m ih =>
    obtain ⟨b, w⟩ := c
    simp only [Memory.clear] at ih ⊢
    by_cases hb : n ≤ b
    · simp only [hb, decide_true, List.filter_cons_of_pos, Memory.read]
      by_cases hab : a = b
      · have : ¬ b < n := by omega
        simp [hab, this]
      · simp [hab, ih]
    · simp only [hb, decide_false, Bool.false_eq_true, not_false_eq_true, List.filter_cons_of_neg, ih, Memory.read]
      by_cases han : a < n
      · simp [han]
      · have : a ≠ b := by omega
        simp [han, this]

theorem Memory.wfFrom_clear {lo : Nat} {m : Memory} (h : Memory.wfFrom lo m = true) (n : Nat) :
    Memory.wfFrom (max lo n) (m.clear n) = true := by
  induction m generalizing lo with
  | nil => rfl
  | cons c m ih =>
    obtain ⟨b, w⟩ := c
    simp only [Memory.wfFrom, Bool.and_eq_true, decide_eq_true_eq, bne_iff_ne] at h
    obtain ⟨⟨hx, hw⟩, ht⟩ := h
    have hrec := ih ht
    simp only [Memory.clear] at hrec ⊢
    by_cases hb : n ≤ b
    · simp only [hb, decide_true, List.filter_cons_of_pos, Memory.wfFrom, Bool.and_eq_true, decide_eq_true_eq, bne_iff_ne]
      refine ⟨⟨by omega, hw⟩, ?_⟩
      rwa [max_eq_left (by omega)] at hrec
    · simp only [hb, decide_false, Bool.false_eq_true, not_false_eq_true, List.filter_cons_of_neg]
      exact Memory.wfFrom_mono hrec (by omega)

/-- The clearing pass keeps the canonical form. -/
theorem Memory.wf_clear {m : Memory} (h : m.wf = true) (n : Nat) : (m.clear n).wf = true :=
  Memory.wfFrom_mono (Memory.wfFrom_clear h n) (Nat.zero_le _)

/-- The clearing pass lists nothing new. -/
theorem Memory.mem_clear {m : Memory} {n : Nat} {c : Cell} (h : c ∈ m.clear n) : c ∈ m ∧ n ≤ c.1 := by
  simpa [Memory.clear] using h

theorem Memory.wfFrom_append {lo n : Nat} {m m' : Memory} (h : Memory.wfFrom lo m = true)
    (hlt : ∀ c ∈ m, c.1 < n) (h' : Memory.wfFrom n m' = true) (hlo : lo ≤ n) : Memory.wfFrom lo (m ++ m') = true := by
  induction m generalizing lo with
  | nil => exact Memory.wfFrom_mono h' hlo
  | cons c m ih =>
    obtain ⟨b, w⟩ := c
    simp only [Memory.wfFrom, Bool.and_eq_true, decide_eq_true_eq, bne_iff_ne, List.cons_append] at h ⊢
    have hb : b < n := hlt (b, w) (by simp)
    exact ⟨h.1, ih h.2 (fun c hc => hlt c (by simp [hc])) hb⟩

theorem Memory.read_append (m m' : Memory) (a : Nat) :
    Memory.read (m ++ m') a = if a ∈ m.map (·.1) then m.read a else Memory.read m' a := by
  induction m with
  | nil => simp
  | cons c m ih =>
    obtain ⟨b, w⟩ := c
    by_cases hab : a = b <;> simp [Memory.read, hab, ih]

/-- The free words of a draw are canonical and lie below `n`. -/
theorem Memory.freeWords_lt {draw n : Nat} {c : Cell} (h : c ∈ Memory.freeWords draw n) : c.1 < n := by
  simp only [Memory.freeWords, List.mem_filter, List.mem_map, List.mem_range] at h
  obtain ⟨⟨a, ha, rfl⟩, _⟩ := h
  exact ha

theorem Memory.freeWords_succ (draw n : Nat) : Memory.freeWords draw (n + 1) =
    Memory.freeWords draw n ++ (if Config.freeWord draw n = Memory.blank then [] else [(n, Config.freeWord draw n)]) := by
  by_cases h : Config.freeWord draw n = Memory.blank <;> simp [Memory.freeWords, List.range_succ, h]

theorem Memory.wf_freeWords (draw n : Nat) : (Memory.freeWords draw n).wf = true := by
  induction n with
  | zero => rfl
  | succ n ih =>
    rw [Memory.freeWords_succ]
    refine Memory.wfFrom_append (n := n) ih (fun c hc => Memory.freeWords_lt hc) ?_ (Nat.zero_le n)
    by_cases h : Config.freeWord draw n = Memory.blank <;> simp [h, Memory.wfFrom]

/-- Scrambling keeps the canonical form. -/
theorem Memory.wf_scramble {m : Memory} (h : m.wf = true) (draw n : Nat) : (m.scramble draw n).wf = true :=
  Memory.wfFrom_append (Memory.wf_freeWords draw n) (fun _ hc => Memory.freeWords_lt hc)
    (Memory.wfFrom_mono (Memory.wfFrom_clear h n) (by omega)) (Nat.zero_le n)

/-- Scrambling lists only old addresses and addresses below `n`. -/
theorem Memory.mem_scramble {m : Memory} {draw n : Nat} {c : Cell} (h : c ∈ m.scramble draw n) : c ∈ m ∨ c.1 < n := by
  rcases List.mem_append.mp h with h | h
  · exact .inr (Memory.freeWords_lt h)
  · exact .inl (Memory.mem_clear h).1

/-- Scrambling leaves every word from `n` on alone. -/
theorem Memory.read_scramble_above (m : Memory) (draw : Nat) {n a : Nat} (ha : n ≤ a) :
    (m.scramble draw n).read a = m.read a := by
  have : a ∉ (Memory.freeWords draw n).map (·.1) := by
    intro h
    obtain ⟨c, hc, rfl⟩ := List.mem_map.mp h
    have := Memory.freeWords_lt hc
    omega
  rw [Memory.scramble, Memory.read_append, if_neg this, Memory.read_clear, if_neg (by omega)]

/-! ### The DMEM primitives -/

/-- Everything MemRead can do. -/
theorem memRead_cases {a : Nat} {s : State} {v : Q} (h : memRead a s = .ok v) : a < s.cfg.memWords ∧ v = s.mem.read a := by
  unfold memRead at h
  split at h
  · rename_i ha; exact ⟨ha, by injection h with h; exact h.symm⟩
  · cases h

theorem memRead_ok {a : Nat} {s : State} (h : a < s.cfg.memWords) : memRead a s = .ok (s.mem.read a) := by
  simp [memRead, h]

/-- Everything MemWrite can do. -/
theorem memWrite_cases {a : Nat} {v : Q} {s t : State} (h : memWrite a v s = .ok t) :
    a < s.cfg.memWords ∧ t = { s with mem := s.mem.write a v } := by
  unfold memWrite at h
  split at h
  · rename_i ha; exact ⟨ha, by injection h with h; exact h.symm⟩
  · cases h

theorem memWrite_ok {a : Nat} {v : Q} {s : State} (h : a < s.cfg.memWords) :
    memWrite a v s = .ok { s with mem := s.mem.write a v } := by
  simp [memWrite, h]

/-- Everything DL.RD can do. -/
theorem dlRd_cases {l : LineId} {k : Nat} {s : State} {v : Q} (h : dlRd l k s = .ok v) :
    readAddr l k s < s.cfg.memWords ∧ v = s.mem.read (readAddr l k s) := memRead_cases h

theorem dlRd_ok {l : LineId} {k : Nat} {s : State} (h : readAddr l k s < s.cfg.memWords) :
    dlRd l k s = .ok (s.mem.read (readAddr l k s)) := memRead_ok h

/-- Everything DL.WR can do. -/
theorem dlWr_cases {l : LineId} {v : Q} {s t : State} (h : dlWr l v s = .ok t) :
    writeAddr l s < s.cfg.memWords ∧
      t = setCursor l (nextCursor l s) { s with mem := s.mem.write (writeAddr l s) v } := by
  unfold dlWr at h
  split at h
  · cases h
  · rename_i s1 hw
    obtain ⟨ha, rfl⟩ := memWrite_cases hw
    exact ⟨ha, by injection h with h; exact h.symm⟩

theorem dlWr_ok {l : LineId} {v : Q} {s : State} (h : writeAddr l s < s.cfg.memWords) :
    dlWr l v s = .ok (setCursor l (nextCursor l s) { s with mem := s.mem.write (writeAddr l s) v }) := by
  simp [dlWr, memWrite_ok h]

end Sys2Proof.Machine
end

