-- ==== Sys2Proof/Laws/Arith.lean ====
section
/-! SUPPORT. The laws of the fixed-point primitives and of the accumulator register, in the form the claims use: every
value as an integer, with the ranges that keep it inside its register (40_fixed_point.md R101, R102, R107). -/

namespace Sys2Proof.Machine

theorem q_toInt_bounds (x : Q) : -2147483648 ≤ x.toInt ∧ x.toInt ≤ 2147483647 := by
  have h1 := BitVec.le_toInt x
  have h2 := BitVec.toInt_lt (x := x)
  norm_num at h1 h2
  omega

/-- `rtz` is division truncated toward zero. -/
theorem rtz_eq_tdiv (a : Int) (k : Nat) : rtz a k = a.tdiv (2 ^ k) := by
  unfold rtz
  have hk : (0 : Int) < 2 ^ k := by positivity
  split
  · rename_i h; rw [Int.tdiv_eq_ediv_of_nonneg h]
  · rename_i h
    rw [← Int.neg_neg a, Int.neg_tdiv, Int.neg_neg, Int.tdiv_eq_ediv_of_nonneg (by omega)]

/-- `sat32` as an integer: the value cut to the rails. -/
theorem sat32_toInt (v : Int) : (sat32 v).toInt = max (-2147483648) (min 2147483647 v) := by
  unfold sat32 qMin qMax
  split
  · rw [BitVec.toInt_ofInt]; simp only [Int.bmod]; norm_num; omega
  · split
    · rw [BitVec.toInt_ofInt]; simp only [Int.bmod]; norm_num; omega
    · rw [BitVec.toInt_ofInt, Int.bmod_eq_of_le] <;> norm_num <;> omega

theorem sat32_of_range {v : Int} (h1 : -2147483648 ≤ v) (h2 : v ≤ 2147483647) : (sat32 v).toInt = v := by
  rw [sat32_toInt]; omega

theorem toInt_ofInt32 {v : Int} (h1 : -2147483648 ≤ v) (h2 : v ≤ 2147483647) : (BitVec.ofInt 32 v).toInt = v := by
  rw [BitVec.toInt_ofInt, Int.bmod_eq_of_le] <;> norm_num <;> omega

/-- A value of fewer than 72 bits goes into the accumulator unchanged (R107). -/
theorem toInt_ofInt72 {v : Int} (h1 : -(2 ^ 71) ≤ v) (h2 : v < 2 ^ 71) : (BitVec.ofInt 72 v).toInt = v := by
  rw [BitVec.toInt_ofInt, Int.bmod_eq_of_le] <;> norm_num at * <;> omega

/-- Two additions into the register are one (the register is two's complement). -/
theorem ofInt72_add (u v : Int) : BitVec.ofInt 72 ((BitVec.ofInt 72 u).toInt + v) = BitVec.ofInt 72 (u + v) := by
  rw [BitVec.ofInt_add, BitVec.ofInt_toInt, ← BitVec.ofInt_add]

theorem ofInt72_sub (u v : Int) : BitVec.ofInt 72 ((BitVec.ofInt 72 u).toInt - v) = BitVec.ofInt 72 (u - v) := by
  rw [Int.sub_eq_add_neg, ofInt72_add, ← Int.sub_eq_add_neg]

theorem setAcc_setAcc (u v : QA) (s : State) : setAcc u (setAcc v s) = setAcc u s := rfl

/-- `setAcc` under any of the accumulator's operations leaves the last value. -/
theorem accMac_setAcc (a b : Q) (v : QA) (s : State) :
    accMac a b (setAcc v s) = setAcc (BitVec.ofInt 72 (v.toInt + a.toInt * b.toInt)) s := rfl

theorem accMsu_setAcc (a b : Q) (v : QA) (s : State) :
    accMsu a b (setAcc v s) = setAcc (BitVec.ofInt 72 (v.toInt - a.toInt * b.toInt)) s := rfl

theorem accAddq_setAcc (a : Q) (v : QA) (s : State) :
    accAddq a (setAcc v s) = setAcc (BitVec.ofInt 72 (v.toInt + a.toInt * 2 ^ 24)) s := rfl

/-- ACC.CLR then ACC.MAC. -/
theorem accMac_accClr (a b : Q) (s : State) : accMac a b (accClr s) = setAcc (BitVec.ofInt 72 (a.toInt * b.toInt)) s := by
  simp [accClr, accMac_setAcc]

/-- ACC.CLR, ACC.MAC, ACC.MSU. -/
theorem accMsu_accMac_accClr (a b c d : Q) (s : State) : accMsu c d (accMac a b (accClr s)) =
    setAcc (BitVec.ofInt 72 (a.toInt * b.toInt - c.toInt * d.toInt)) s := by
  rw [accMac_accClr, accMsu_setAcc, ofInt72_sub]

/-- ACC.CLR, ACC.MAC, ACC.MAC. -/
theorem accMac_accMac_accClr (a b c d : Q) (s : State) : accMac c d (accMac a b (accClr s)) =
    setAcc (BitVec.ofInt 72 (a.toInt * b.toInt + c.toInt * d.toInt)) s := by
  rw [accMac_accClr, accMac_setAcc, ofInt72_add]

/-- ACC.CLR, ACC.ADDQ. -/
theorem accAddq_accClr (v : Q) (s : State) : accAddq v (accClr s) = setAcc (BitVec.ofInt 72 (v.toInt * 2 ^ 24)) s := by
  simp [accClr, accAddq_setAcc]

/-- ACC.CLR, ACC.ADDQ, ACC.MAC. -/
theorem accMac_accAddq_accClr (v a b : Q) (s : State) : accMac a b (accAddq v (accClr s)) =
    setAcc (BitVec.ofInt 72 (v.toInt * 2 ^ 24 + a.toInt * b.toInt)) s := by
  rw [accAddq_accClr, accMac_setAcc, ofInt72_add]

/-- ACC.CLR, ACC.ADDQ, ACC.MSU. -/
theorem accMsu_accAddq_accClr (v a b : Q) (s : State) : accMsu a b (accAddq v (accClr s)) =
    setAcc (BitVec.ofInt 72 (v.toInt * 2 ^ 24 - a.toInt * b.toInt)) s := by
  rw [accAddq_accClr, accMsu_setAcc, ofInt72_sub]

/-- ACC.OUT of a known accumulator. -/
theorem accOut_setAcc (k : Nat) (v : QA) (s : State) : accOut k (setAcc v s) = sat32 (rtz v.toInt k) := rfl

/-- The product of two samples has at most 63 bits (R107). -/
theorem product_bounds (a b : Q) : -(2 ^ 62) ≤ a.toInt * b.toInt ∧ a.toInt * b.toInt ≤ 2 ^ 62 := by
  obtain ⟨ha1, ha2⟩ := q_toInt_bounds a
  obtain ⟨hb1, hb2⟩ := q_toInt_bounds b
  have habs : |a.toInt * b.toInt| ≤ 2147483648 * 2147483648 := by
    rw [abs_mul]
    exact mul_le_mul (abs_le.mpr ⟨ha1, by omega⟩) (abs_le.mpr ⟨hb1, by omega⟩) (abs_nonneg _) (by norm_num)
  have := abs_le.mp habs
  norm_num at this ⊢
  exact this

end Sys2Proof.Machine
end

