-- ==== Sys2Proof/Laws/Encoding.lean ====
section
/-! SUPPORT. Words as numbers: the fields of a command word, the opcode table's masks and a concatenation of fields, each
as arithmetic on `toNat`, so that claims about encodings are left to `omega`. -/

namespace Sys2Proof

theorem toNat_append_add {m n : Nat} (a : BitVec m) (b : BitVec n) : (a ++ b).toNat = a.toNat * 2 ^ n + b.toNat := by
  rw [BitVec.toNat_append, ← Nat.shiftLeft_add_eq_or_of_lt b.isLt, Nat.shiftLeft_eq]

theorem toNat_field (w : CmdWord) (start len : Nat) :
    (w.extractLsb' start len).toNat = w.toNat / 2 ^ start % 2 ^ len := by
  rw [BitVec.extractLsb'_toNat, Nat.shiftRight_eq_div_pow]

/-- A mask of the top bits keeps the quotient by their weight. -/
theorem toNat_shift_back (w : CmdWord) (k : Nat) : ((w >>> k) <<< k).toNat = w.toNat / 2 ^ k * 2 ^ k := by
  rw [BitVec.toNat_shiftLeft, BitVec.toNat_ushiftRight, Nat.shiftLeft_eq, Nat.shiftRight_eq_div_pow]
  exact Nat.mod_eq_of_lt (lt_of_le_of_lt (Nat.div_mul_le_self _ _) w.isLt)

/-- Every mask of the table lies in the top byte, so a row looks at the top byte of a word alone. -/
theorem hits_topByte {r : Row} (hr : r ∈ cmdRows) (w : CmdWord) : r.hits w = r.hits ((w >>> 24) <<< 24) := by
  have hmask : ∀ r ∈ cmdRows, r.mask = 0xFF000000#32 &&& r.mask := by decide
  have hw : w &&& 0xFF000000#32 = (w >>> 24) <<< 24 := by
    apply BitVec.eq_of_getLsbD_eq
    intro i hi
    simp only [BitVec.getLsbD_and, BitVec.getLsbD_shiftLeft, BitVec.getLsbD_ushiftRight]
    interval_cases i <;> simp
  have hidem : (w &&& 0xFF000000#32) &&& r.mask = w &&& r.mask := by
    rw [BitVec.and_assoc, ← hmask r hr]
  unfold Row.hits
  rw [← hw, hidem]

theorem tableRow_topByte (w : CmdWord) : tableRow w = tableRow ((w >>> 24) <<< 24) := by
  unfold tableRow
  rw [List.find?_congr (fun r hr => hits_topByte hr w)]

/-- The row of a word by its top byte, whose high digit is `OP` and whose low digit is `A` (R80, R86). -/
def rowOfTop (top : Nat) : String :=
  if top / 16 = 1 then "INIT" else if top = 32 then "SETP.TIME" else if top = 33 then "SETP.DEPTH"
  else if top = 34 then "SETP.MIX" else if top / 16 = 2 then "SETP.UNKNOWN" else if top = 48 then "GETP.TIME"
  else if top = 49 then "GETP.DEPTH" else if top = 50 then "GETP.MIX" else if top / 16 = 3 then "GETP.UNKNOWN"
  else if top / 16 = 4 then "RENDER" else if top / 16 = 0 then "RESERVED.OP0" else if top / 16 = 5 then "RESERVED.OP5"
  else if top / 32 = 3 then "RESERVED.OP6_7" else "RESERVED.OP8_15"

theorem tableRow_of_top {w : CmdWord} {top : Nat} (h : w.toNat / 2 ^ 24 = top) : tableRow w = some (rowOfTop top) := by
  have hw := w.isLt
  have htop : top < 256 := by omega
  have hall : ∀ t < 256, tableRow (BitVec.ofNat 32 (t * 2 ^ 24)) = some (rowOfTop t) := by decide +kernel
  have heq : (w >>> 24) <<< 24 = BitVec.ofNat 32 (top * 2 ^ 24) := by
    apply BitVec.eq_of_toNat_eq
    rw [toNat_shift_back, h, BitVec.toNat_ofNat, Nat.mod_eq_of_lt (by omega)]
  rw [tableRow_topByte, heq, hall top htop]

end Sys2Proof
end

