-- ==== Sys2Proof/Laws/Ops.lean ====
section
/-! SUPPORT. One lemma per shared operation that says once what it gives, for later proofs to cite: the filters, the
output stage, the delay-line addresses, the block latches, the failure of INIT and hardware reset. -/

namespace Sys2Proof.Machine

theorem qa_zero_toInt : (0 : QA).toInt = 0 := rfl

/-! ### Tap registers -/

@[simp] theorem readTap_setAcc (v : QA) (t : Tap) (s : State) : readTap (setAcc v s) t = readTap s t := by
  cases t <;> rfl

@[simp] theorem setAcc_acc_readTap (t : Tap) (s : State) : (accLd t s).acc = readTap s t := rfl

/-- The four tone taps read back what is written to them. -/
@[simp] theorem readTap_setTap_self_lpz1 (v : QA) (s : State) : readTap (setTap .lpz1 v s) .lpz1 = v := rfl
@[simp] theorem readTap_setTap_self_lpz2 (v : QA) (s : State) : readTap (setTap .lpz2 v s) .lpz2 = v := rfl
@[simp] theorem readTap_setTap_self_hpz1 (v : QA) (s : State) : readTap (setTap .hpz1 v s) .hpz1 = v := rfl
@[simp] theorem readTap_setTap_self_hpz2 (v : QA) (s : State) : readTap (setTap .hpz2 v s) .hpz2 = v := rfl

theorem setTap_setAcc (t : Tap) (v w : QA) (s : State) : setTap t v (setAcc w s) = setAcc w (setTap t v s) := by
  cases t <;> rfl

/-! ### Filters -/

/-- IIR1 (R131): its output and the state after, with the tap as one register value. -/
theorem iir1_eq (co : Coef1) (z : Tap) (x : Q) (s : State) :
    iir1 co z x s =
      let y := sat32 (rtz (BitVec.ofInt 72 ((readTap s z).toInt + co.b0.toInt * x.toInt)).toInt 24)
      let t := BitVec.ofInt 72 (co.b1.toInt * x.toInt - co.a1.toInt * y.toInt)
      (y, setTap z t (setAcc t s)) := by
  simp only [iir1, accLd, accMac_setAcc, accOut_setAcc, accSt, accClr, setAcc_setAcc, accMsu_setAcc, ofInt72_sub,
    setAcc_acc, qa_zero_toInt, zero_add]

/-- The output of IIR1 with a tap inside its R107 bound is the rule's, with nothing lost. -/
theorem iir1_out (co : Coef1) (z : Tap) (x : Q) (s : State) (h : QA.within (readTap s z) 64) :
    (iir1 co z x s).1 = sat32 (rtz ((readTap s z).toInt + co.b0.toInt * x.toInt) 24) := by
  have hp := product_bounds co.b0 x
  rw [iir1_eq, toInt_ofInt72]
  · have := h.1; norm_num at *; omega
  · have := h.2; norm_num at *; omega

/-- BIQ (R132): its output and the state after. `z1'` is computed from the old `z2`. -/
theorem biq_eq (co : Coef2) (z1 z2 : Tap) (x : Q) (s : State) :
    biq co z1 z2 x s =
      let y := sat32 (rtz (BitVec.ofInt 72 ((readTap s z1).toInt + co.b0.toInt * x.toInt)).toInt 24)
      let u1 := BitVec.ofInt 72 ((readTap s z2).toInt + co.b1.toInt * x.toInt - co.a1.toInt * y.toInt)
      let u2 := BitVec.ofInt 72 (co.b2.toInt * x.toInt - co.a2.toInt * y.toInt)
      (y, setTap z2 u2 (setAcc u2 (setTap z1 u1 s))) := by
  simp only [biq, accLd, accMac_setAcc, accOut_setAcc, accSt, accClr, setAcc_setAcc, accMsu_setAcc, ofInt72_sub,
    setAcc_acc, qa_zero_toInt, zero_add, readTap_setAcc, setTap_setAcc]

/-- The output of BIQ with a first tap inside its R107 bound is the rule's, with nothing lost. -/
theorem biq_out (co : Coef2) (z1 z2 : Tap) (x : Q) (s : State) (h : QA.within (readTap s z1) 64) :
    (biq co z1 z2 x s).1 = sat32 (rtz ((readTap s z1).toInt + co.b0.toInt * x.toInt) 24) := by
  have hp := product_bounds co.b0 x
  rw [biq_eq, toInt_ofInt72]
  · have := h.1; norm_num at *; omega
  · have := h.2; norm_num at *; omega

/-! ### Output stage -/

/-- One rounded product (R163). -/
theorem roundedProduct_eq (a b : Q) (s : State) : roundedProduct a b s =
    (sat32 (rtz (a.toInt * b.toInt) 24), setAcc (BitVec.ofInt 72 (a.toInt * b.toInt)) s) := by
  have hp := product_bounds a b
  simp only [roundedProduct, accMac_accClr, accOut_setAcc]
  rw [toInt_ofInt72] <;> norm_num at * <;> omega

/-- XFADE (R161). -/
theorem xfade_eq (x w : Q) (s : State) : xfade x w s =
    (sat32 (rtz (s.dryw.toInt * x.toInt + s.wetw.toInt * w.toInt) 24),
      setAcc (BitVec.ofInt 72 (s.dryw.toInt * x.toInt + s.wetw.toInt * w.toInt)) s) := by
  have hp := product_bounds s.dryw x
  have hq := product_bounds s.wetw w
  simp only [xfade, accMac_accMac_accClr, accOut_setAcc]
  rw [toInt_ofInt72] <;> norm_num at * <;> omega

/-- The product of COMB's feedback (R141). -/
theorem combMix_eq (p d g : Q) (s : State) : combMix p d g s =
    (sat32 (rtz (p.toInt * 2 ^ 24 + d.toInt * g.toInt) 24),
      setAcc (BitVec.ofInt 72 (p.toInt * 2 ^ 24 + d.toInt * g.toInt)) s) := by
  have hp := product_bounds d g
  have hq := q_toInt_bounds p
  simp only [combMix, accMac_accAddq_accClr, accOut_setAcc]
  rw [toInt_ofInt72] <;> norm_num at * <;> omega

/-- The output of AP (R151). -/
theorem apOut_eq (del g v : Q) (s : State) : apOut del g v s =
    (sat32 (rtz (del.toInt * 2 ^ 24 - g.toInt * v.toInt) 24),
      setAcc (BitVec.ofInt 72 (del.toInt * 2 ^ 24 - g.toInt * v.toInt)) s) := by
  have hp := product_bounds g v
  have hq := q_toInt_bounds del
  simp only [apOut, accMsu_accAddq_accClr, accOut_setAcc]
  rw [toInt_ofInt72] <;> norm_num at * <;> omega

/-- What AP writes back (R151). -/
theorem apBack_eq (v g o : Q) (s : State) : apBack v g o s =
    (sat32 (rtz (v.toInt * 2 ^ 24 + g.toInt * o.toInt) 24),
      setAcc (BitVec.ofInt 72 (v.toInt * 2 ^ 24 + g.toInt * o.toInt)) s) := by
  have hp := product_bounds g o
  have hq := q_toInt_bounds v
  simp only [apBack, accMac_accAddq_accClr, accOut_setAcc]
  rw [toInt_ofInt72] <;> norm_num at * <;> omega

/-- The accumulation of CNORM (R143): one register value, the exact sum. -/
theorem sumLines_eq (norm : Q) (rs : List Q) (s : State) : sumLines norm rs s =
    setAcc (BitVec.ofInt 72 (s.acc.toInt + (rs.map (·.toInt)).sum * norm.toInt)) s := by
  induction rs generalizing s with
  | nil => simp [sumLines, setAcc, BitVec.ofInt_toInt]
  | cons r rs ih =>
    rw [sumLines, ih, accMac_acc, ofInt72_add]
    simp only [accMac, setAcc_setAcc, List.map_cons, List.sum_cons]
    congr 2
    ring

/-- SCLIP (R163) gives the soft clip of its operand and changes the accumulator only. -/
theorem sclip_state (m : Q) (s : State) : ∃ v, (sclip m s).2 = setAcc v s := by
  simp only [sclip, roundedProduct_eq, setAcc_setAcc]
  exact ⟨_, rfl⟩

/-! ### Delay lines -/

/-- A read at any offset of a line with capacity at least 1 stays inside the line's region (R65). -/
theorem readAddr_lt (l : LineId) (k : Nat) (s : State) (h : 0 < lineCap s.cfg l) :
    lineBase s.cfg l ≤ readAddr l k s ∧ readAddr l k s < lineBase s.cfg l + lineCap s.cfg l := by
  have h1 := Int.emod_nonneg ((lineCursor s l : Int) - k) (by omega : (lineCap s.cfg l : Int) ≠ 0)
  have h2 := Int.emod_lt_of_pos ((lineCursor s l : Int) - k) (by omega : (0 : Int) < lineCap s.cfg l)
  unfold readAddr
  omega

/-- A write at a legal cursor stays inside the line's region (R65). -/
theorem writeAddr_lt (l : LineId) (s : State) (h : s.cursorOk l) :
    lineBase s.cfg l ≤ writeAddr l s ∧ writeAddr l s < lineBase s.cfg l + lineCap s.cfg l := by
  unfold writeAddr
  unfold State.cursorOk at h
  omega

/-- The cursor stays legal (R122). -/
theorem nextCursor_lt (l : LineId) (s : State) (h : 0 < lineCap s.cfg l) : nextCursor l s < lineCap s.cfg l :=
  Nat.mod_lt _ h

theorem take_map_sum_add_le {α : Type} (f : α → Nat) (l : List α) (i : Nat) :
    ((l.take i).map f).sum + (l.map f).getD i 0 ≤ (l.map f).sum := by
  induction l generalizing i with
  | nil => simp
  | cons x l ih =>
    cases i with
    | zero => simp
    | succ i => simpa [add_assoc] using ih i

/-- One more line moves the base by its capacity (R61). -/
theorem take_map_sum_succ {α : Type} (f : α → Nat) (l : List α) (i : Nat) :
    ((l.take (i + 1)).map f).sum = ((l.take i).map f).sum + (l.map f).getD i 0 := by
  induction l generalizing i with
  | nil => simp
  | cons x l ih =>
    cases i with
    | zero => simp
    | succ i => simp only [List.take_succ_cons, List.map_cons, List.sum_cons, ih]; simp; omega

/-- Every line's region lies inside the required words (R61, R62). -/
theorem lineEnd_le (c : Cfg) (l : LineId) : lineBase c l + lineCap c l ≤ c.reqWords := by
  cases l with
  | pre => simp only [lineBase, lineCap, Cfg.reqWords]; omega
  | comb i =>
    have := take_map_sum_add_le (·.cap) c.combs i
    simp only [lineBase, lineCap, Cfg.reqWords, Cfg.combBase]; omega
  | ap j =>
    have := take_map_sum_add_le (·.cap) c.aps j
    simp only [lineBase, lineCap, Cfg.reqWords, Cfg.apBase, Cfg.combBase, Cfg.n, List.take_length]; omega

/-! ### Well-formed configurations -/

theorem Cfg.WF.combDelay {c : Cfg} (h : c.WF) {i : Nat} (hi : i < c.n) :
    1 ≤ (combCfg c i).delay ∧ (combCfg c i).delay < (combCfg c i).cap := by
  have hi' : i < c.combs.length := hi
  have hall := List.all_eq_true.mp h.2.2.1 (c.combs[i]'hi') (List.getElem_mem hi')
  simpa [combCfg, List.getD_eq_getElem?_getD, hi'] using hall

theorem Cfg.WF.apDelay {c : Cfg} (h : c.WF) {j : Nat} (hj : j < c.m) :
    1 ≤ (apCfg c j).delay ∧ (apCfg c j).delay ≤ (apCfg c j).cap := by
  have hj' : j < c.aps.length := hj
  have hall := List.all_eq_true.mp h.2.2.2.1 (c.aps[j]'hj') (List.getElem_mem hj')
  have := (of_decide_eq_true hall).1
  simpa [apCfg, List.getD_eq_getElem?_getD, hj'] using this

theorem lineCap_comb (c : Cfg) {i : Nat} (hi : i < c.n) : lineCap c (.comb i) = (combCfg c i).cap := by
  have hi' : i < c.combs.length := hi
  simp [lineCap, combCfg, List.getD_eq_getElem?_getD, hi']

theorem lineCap_ap (c : Cfg) {j : Nat} (hj : j < c.m) : lineCap c (.ap j) = (apCfg c j).cap := by
  have hj' : j < c.aps.length := hj
  simp [lineCap, apCfg, List.getD_eq_getElem?_getD, hj']

/-- The table index never leaves the table (R144). -/
theorem gidx_lt {c : Cfg} (h : c.WF) (t : BitVec 10) : gidx c t < c.lutSteps := by
  have := h.2.2.2.2.2.2.2.1.1
  unfold gidx
  omega

/-- The selected row has one gain in `[0, ONE)` for each line (R144, R145). -/
theorem gainRow_wf {c : Cfg} (h : c.WF) (t : BitVec 10) : c.gainRowWF (gainRow c t) := by
  have hlt : gidx c t < c.glut.length := gidx_lt h t
  have hall := List.all_eq_true.mp h.2.2.2.2.1 (c.glut[gidx c t]) (List.getElem_mem hlt)
  have : gainRow c t = c.glut[gidx c t] := by
    simp [gainRow, List.getD_eq_getElem?_getD, hlt]
  rw [this]
  exact of_decide_eq_true hall

/-! ### Block latches -/

theorem sendGain_toInt (d : BitVec 10) : (sendGain d).toInt = d.toNat * 2 ^ 14 := by
  have := d.isLt
  unfold sendGain
  rw [BitVec.toInt_eq_toNat_of_lt] <;> simp only [BitVec.toNat_ofNat] <;> omega

theorem wetWeight_toInt {mix : Int} (h : -1000 ≤ mix ∧ mix ≤ 1000) :
    (wetWeight mix).toInt = ((mix + 1000) * 2 ^ 24) / 2000 := by
  unfold wetWeight
  rw [toInt_ofInt32] <;> norm_num <;> omega

theorem dryWeight_toInt {w : Q} (h : 0 ≤ w.toInt ∧ w.toInt ≤ oneRaw) : (dryWeight w).toInt = oneRaw - w.toInt := by
  unfold dryWeight
  unfold oneRaw at *
  rw [toInt_ofInt32] <;> omega

/-! ### The READY engine -/

/-- A tap that is the difference of two products is inside R107's bound. -/
theorem within_two_products (b x a y : Q) : QA.within (BitVec.ofInt 72 (b.toInt * x.toInt - a.toInt * y.toInt)) 63 := by
  have h1 := product_bounds b x
  have h2 := product_bounds a y
  unfold QA.within
  rw [toInt_ofInt72] <;> norm_num at * <;> omega

/-- A tap that adds two products to the second tap is inside R107's bound. -/
theorem within_tap_and_two_products {z : QA} (hz : QA.within z 63) (b x a y : Q) :
    QA.within (BitVec.ofInt 72 (z.toInt + b.toInt * x.toInt - a.toInt * y.toInt)) 64 := by
  have h1 := product_bounds b x
  have h2 := product_bounds a y
  unfold QA.within at *
  rw [toInt_ofInt72] <;> norm_num at * <;> omega

/-- The engine invariant looks at the configuration, cursors, mix, latches and taps alone. -/
theorem engineInv_congr {s t : State} (h : s.EngineInv) (hcfg : t.cfg = s.cfg) (hpcur : t.pcur = s.pcur)
    (hccur : t.ccur = s.ccur) (hacur : t.acur = s.acur) (hmix : t.pMix = s.pMix) (hfbg : t.fbg = s.fbg)
    (hsend : t.sendg = s.sendg) (hwet : t.wetw = s.wetw) (hdry : t.dryw = s.dryw) (hl1 : t.lpz1 = s.lpz1)
    (hl2 : t.lpz2 = s.lpz2) (hh1 : t.hpz1 = s.hpz1) (hh2 : t.hpz2 = s.hpz2) (hdz : t.dz = s.dz) : t.EngineInv := by
  obtain ⟨a1, a2, a3, a4, a5, a6, a7, a8, a9, a10, a11, a12⟩ := h
  constructor
  · simpa [hcfg] using a1
  · simpa [State.cursorOk, lineCursor, hcfg, hpcur] using a2
  · simpa [State.cursorOk, lineCursor, hcfg, hccur] using a3
  · simpa [State.cursorOk, lineCursor, hcfg, hacur] using a4
  · rw [hmix]; exact a5
  · rw [hfbg, hcfg]; exact a6
  · rw [hsend]; exact a7
  · rw [hwet]; exact a8
  · rw [hwet, hdry]; exact a9
  · rw [hl1, hl2]; exact a10
  · rw [hh1, hh2]; exact a11
  · rw [hdz, hcfg]; exact a12

/-! ### Failure and reset -/

/-- What a failed INIT leaves: UNINIT, its response, the sequencer idle, one register per line, and every DMEM word from
`REQ_WORDS` on (R195; log 7). The other registers hold free values. -/
theorem raiseFailure_spec (st : BitVec 4) (s : State) :
    (raiseFailure st s).mode = .uninit ∧ (raiseFailure st s).rspStatus = st ∧ (raiseFailure st s).rspData = 0 ∧
    (raiseFailure st s).rspValid = true ∧ (raiseFailure st s).rspOut = s.rspOut ++ [⟨st, 0⟩] ∧
    (raiseFailure st s).fcnt = 0 ∧ (raiseFailure st s).seq = Seq.idle ∧ (raiseFailure st s).idx = 0 ∧
    (raiseFailure st s).cfg = s.cfg ∧
    (∀ a, s.cfg.reqWords ≤ a → (raiseFailure st s).mem.read a = s.mem.read a) := by
  refine ⟨rfl, rfl, rfl, rfl, rfl, rfl, rfl, rfl, rfl, fun a ha => ?_⟩
  exact Memory.read_scramble_above _ _ (le_trans (min_le_right _ _) ha)

/-- What hardware reset leaves (R210). The other registers and every DMEM word hold free values. -/
theorem hardReset_spec (s : State) :
    (hardReset s).mode = .uninit ∧ (hardReset s).fcnt = 0 ∧ (hardReset s).seq = Seq.idle ∧ (hardReset s).idx = 0 ∧
    (hardReset s).rspValid = false ∧ (hardReset s).outValid = false ∧ (hardReset s).rst = false ∧
    (hardReset s).cfg = s.cfg ∧ (hardReset s).rspOut = s.rspOut ∧ (hardReset s).frameOut = s.frameOut :=
  ⟨rfl, rfl, rfl, rfl, rfl, rfl, rfl, rfl, rfl, rfl⟩

end Sys2Proof.Machine
end

