-- ==== Sys2Proof/Laws/PerInstr.lean ====
section
/-! SUPPORT. The family EncodesItsRow: the code of a well-formed instruction belongs to the instruction's own row of the
opcode table. One lemma per constructor of Instr. -/

namespace Sys2Proof.Laws

/-- A command's word hits its own row first (R87); an internal operation's code is one of the 15 used ones (R89). -/
def EncodesItsRow.Statement (i : Instr) : Prop :=
  i.wf = true →
    match encode i with
    | .cmd w => tableRow w = some i.mnemonic
    | .seq c => c.toNat ≤ 14

theorem EncodesItsRow.init (inch outch : BitVec 2) (fs : BitVec 24) : EncodesItsRow.Statement (.init inch outch fs) := by
  intro _
  have h1 := inch.isLt
  have h2 := outch.isLt
  have h3 := fs.isLt
  have hw : (1#4 ++ inch ++ outch ++ fs).toNat / 2 ^ 24 = 16 + inch.toNat * 4 + outch.toNat := by
    simp only [toNat_append_add, BitVec.toNat_ofNat]; omega
  refine (tableRow_of_top hw).trans ?_
  generalize inch.toNat = a at *
  generalize outch.toNat = b at *
  simp only [rowOfTop, Instr.mnemonic, Option.some.injEq]
  rw [if_pos (by omega)]

theorem top_of_id {k : Nat} (op : BitVec 4) (id : BitVec 4) (imm : BitVec 24) (hk : op.toNat * 16 + id.toNat = k) :
    (op ++ id ++ imm).toNat / 2 ^ 24 = k := by
  have := imm.isLt
  simp only [toNat_append_add]; omega

theorem EncodesItsRow.setpTime (val : BitVec 24) : EncodesItsRow.Statement (.setpTime val) :=
  fun _ => tableRow_of_top (top_of_id 2#4 0#4 val rfl)

theorem EncodesItsRow.setpDepth (val : BitVec 24) : EncodesItsRow.Statement (.setpDepth val) :=
  fun _ => tableRow_of_top (top_of_id 2#4 1#4 val rfl)

theorem EncodesItsRow.setpMix (val : BitVec 24) : EncodesItsRow.Statement (.setpMix val) :=
  fun _ => tableRow_of_top (top_of_id 2#4 2#4 val rfl)

theorem EncodesItsRow.setpUnknown (id : BitVec 4) (val : BitVec 24) : EncodesItsRow.Statement (.setpUnknown id val) := by
  intro h
  have hid : 3 ≤ id.toNat := by simpa [Instr.wf, unrecognisedId] using h
  have hlt := id.isLt
  refine (tableRow_of_top (top_of_id 2#4 id val rfl)).trans ?_
  generalize id.toNat = k at *
  interval_cases k <;> rfl

theorem EncodesItsRow.getpTime (ign : BitVec 24) : EncodesItsRow.Statement (.getpTime ign) :=
  fun _ => tableRow_of_top (top_of_id 3#4 0#4 ign rfl)

theorem EncodesItsRow.getpDepth (ign : BitVec 24) : EncodesItsRow.Statement (.getpDepth ign) :=
  fun _ => tableRow_of_top (top_of_id 3#4 1#4 ign rfl)

theorem EncodesItsRow.getpMix (ign : BitVec 24) : EncodesItsRow.Statement (.getpMix ign) :=
  fun _ => tableRow_of_top (top_of_id 3#4 2#4 ign rfl)

theorem EncodesItsRow.getpUnknown (id : BitVec 4) (ign : BitVec 24) : EncodesItsRow.Statement (.getpUnknown id ign) := by
  intro h
  have hid : 3 ≤ id.toNat := by simpa [Instr.wf, unrecognisedId] using h
  have hlt := id.isLt
  refine (tableRow_of_top (top_of_id 3#4 id ign rfl)).trans ?_
  generalize id.toNat = k at *
  interval_cases k <;> rfl

theorem EncodesItsRow.render (ign : BitVec 4) (nfr : BitVec 24) : EncodesItsRow.Statement (.render ign nfr) := by
  intro _
  have hlt := ign.isLt
  refine (tableRow_of_top (top_of_id 4#4 ign nfr rfl)).trans ?_
  generalize ign.toNat = k at *
  interval_cases k <;> rfl

/-- The top byte of a reserved word with `OP` alone fixed. -/
theorem top_of_rest28 (op : BitVec 4) (rest : BitVec 28) :
    ∃ k < 16, (op ++ rest).toNat / 2 ^ 24 = op.toNat * 16 + k := by
  have := rest.isLt
  refine ⟨rest.toNat / 2 ^ 24, by omega, ?_⟩
  simp only [toNat_append_add]; omega

theorem EncodesItsRow.reservedOp0 (rest : BitVec 28) : EncodesItsRow.Statement (.reservedOp0 rest) := by
  intro _
  obtain ⟨k, hk, hw⟩ := top_of_rest28 0#4 rest
  refine (tableRow_of_top hw).trans ?_
  interval_cases k <;> rfl

theorem EncodesItsRow.reservedOp5 (rest : BitVec 28) : EncodesItsRow.Statement (.reservedOp5 rest) := by
  intro _
  obtain ⟨k, hk, hw⟩ := top_of_rest28 5#4 rest
  refine (tableRow_of_top hw).trans ?_
  interval_cases k <;> rfl

theorem EncodesItsRow.reservedOp6_7 (rest : BitVec 29) : EncodesItsRow.Statement (.reservedOp6_7 rest) := by
  intro _
  have := rest.isLt
  have hw : (3#3 ++ rest).toNat / 2 ^ 24 = 96 + rest.toNat / 2 ^ 24 := by
    simp only [toNat_append_add, BitVec.toNat_ofNat]; omega
  have hk : rest.toNat / 2 ^ 24 < 32 := by omega
  refine (tableRow_of_top hw).trans ?_
  generalize rest.toNat / 2 ^ 24 = k at *
  interval_cases k <;> rfl

theorem EncodesItsRow.reservedOp8_15 (rest : BitVec 31) : EncodesItsRow.Statement (.reservedOp8_15 rest) := by
  intro _
  have := rest.isLt
  have hw : (1#1 ++ rest).toNat / 2 ^ 24 = 128 + rest.toNat / 2 ^ 24 := by
    simp only [toNat_append_add, BitVec.toNat_ofNat]; omega
  have hk : rest.toNat / 2 ^ 24 < 128 := by omega
  have hall : ∀ k < 128, rowOfTop (128 + k) = "RESERVED.OP8_15" := by decide +kernel
  exact (tableRow_of_top hw).trans (congrArg some (hall _ hk))

theorem EncodesItsRow.idle : EncodesItsRow.Statement .idle := fun _ => (by decide : Seq.idle.toNat ≤ 14)

theorem EncodesItsRow.blkpro : EncodesItsRow.Statement .blkpro := fun _ => (by decide : Seq.blkpro.toNat ≤ 14)

theorem EncodesItsRow.gsched : EncodesItsRow.Statement .gsched := fun _ => (by decide : Seq.gsched.toNat ≤ 14)

theorem EncodesItsRow.send : EncodesItsRow.Statement .send := fun _ => (by decide : Seq.send.toNat ≤ 14)

theorem EncodesItsRow.biqLp : EncodesItsRow.Statement .biqLp := fun _ => (by decide : Seq.biqLp.toNat ≤ 14)

theorem EncodesItsRow.biqHp : EncodesItsRow.Statement .biqHp := fun _ => (by decide : Seq.biqHp.toNat ≤ 14)

theorem EncodesItsRow.pdly : EncodesItsRow.Statement .pdly := fun _ => (by decide : Seq.pdly.toNat ≤ 14)

theorem EncodesItsRow.comb : EncodesItsRow.Statement .comb := fun _ => (by decide : Seq.comb.toNat ≤ 14)

theorem EncodesItsRow.cnorm : EncodesItsRow.Statement .cnorm := fun _ => (by decide : Seq.cnorm.toNat ≤ 14)

theorem EncodesItsRow.ap : EncodesItsRow.Statement .ap := fun _ => (by decide : Seq.ap.toNat ≤ 14)

theorem EncodesItsRow.xfadeL : EncodesItsRow.Statement .xfadeL := fun _ => (by decide : Seq.xfadeL.toNat ≤ 14)

theorem EncodesItsRow.sclipL : EncodesItsRow.Statement .sclipL := fun _ => (by decide : Seq.sclipL.toNat ≤ 14)

theorem EncodesItsRow.xfadeR : EncodesItsRow.Statement .xfadeR := fun _ => (by decide : Seq.xfadeR.toNat ≤ 14)

theorem EncodesItsRow.sclipR : EncodesItsRow.Statement .sclipR := fun _ => (by decide : Seq.sclipR.toNat ≤ 14)

theorem EncodesItsRow.emit : EncodesItsRow.Statement .emit := fun _ => (by decide : Seq.emit.toNat ≤ 14)

end Sys2Proof.Laws
end

