-- ==== Sys2Proof/Tests/Slice0.lean ====
section
/-! SUPPORT. Tests: well-formedness refuses what it must, every constructor decodes from a word written out from its
encoding, single steps give the numbers of 95_test_vectors.md, and every statement with hypotheses has a state and operands
that meet them. Expected values come from the spec's vectors and examples, named at each group. -/

namespace Sys2Proof.Tests

/-! Each theorem here is one evaluation by the kernel; they are checked one after the other. -/

set_option Elab.async false

open Sys2Proof Sys2Proof.Machine

/-! ## Helpers -/

/-- The engine of `CFG_TINY` straight after INIT (10_state.md R48), at a given schedule position. -/
def engine (code : BitVec 5) (i : BitVec 6) (n : BitVec 24) : State :=
  { State.resetOf Cfg.tiny with
    mode := .ready, seq := code, idx := i, fcnt := n
    fbg := [8388608#32, 4194304#32], wetw := 8388608#32, dryw := 8388608#32 }

/-- The engine between commands. -/
def ready : State := engine 0 0 0

/-- The state an outcome goes on to. -/
def after : Result → Option State
  | .next s => some s
  | .fault _ => none
  | .refused _ => none

/-- A number as a sample. -/
def q (v : Int) : Q := BitVec.ofInt 32 v

/-! ## Well-formedness: one refusal for each check -/

theorem test_wf_refuses_setp_of_a_known_id : (Instr.setpUnknown 2 0).wf = false := by decide
theorem test_wf_refuses_getp_of_a_known_id : (Instr.getpUnknown 0 0).wf = false := by decide
theorem test_wf_takes_first_and_last_unknown_id :
    (Instr.setpUnknown 3 0).wf = true ∧ (Instr.getpUnknown 15 0).wf = true := by decide

theorem test_reference_configuration_is_well_formed : Cfg.ref.WF := by decide +kernel
theorem test_tiny_configuration_is_well_formed : Cfg.tiny.WF := by decide +kernel
/-- 92_eei_decisions.md D24, D25: the two values of `REQ_WORDS`. -/
theorem test_required_words : Cfg.ref.reqWords = 5980 ∧ Cfg.tiny.reqWords = 11 := by decide +kernel
theorem test_wf_a_no_comb_line : ¬ { Cfg.tiny with combs := [] : Cfg }.WF := by decide +kernel
theorem test_wf_b_pre_delay_beyond_capacity : ¬ { Cfg.tiny with preD := 3 : Cfg }.WF := by decide +kernel
theorem test_wf_c_comb_delay_equal_to_capacity :
    ¬ { Cfg.tiny with combs := [⟨3, 3, ⟨0, 0, 0⟩⟩, ⟨3, 4, ⟨0, 0, 0⟩⟩] : Cfg }.WF := by decide +kernel
theorem test_wf_d_all_pass_delay_beyond_capacity : ¬ { Cfg.tiny with aps := [⟨3, 2, 0⟩] : Cfg }.WF := by decide +kernel
theorem test_wf_e_table_gain_of_one :
    ¬ { Cfg.tiny with glut := [[16777216#32, 0#32]] : Cfg }.WF := by decide +kernel
theorem test_wf_f_all_pass_gain_of_one : ¬ { Cfg.tiny with aps := [⟨1, 2, 16777216#32⟩] : Cfg }.WF := by decide +kernel
theorem test_wf_g_pre_scale_zero : ¬ { Cfg.tiny with scPre := 0 : Cfg }.WF := by decide +kernel
theorem test_wf_h_address_width_too_small : ¬ { Cfg.tiny with aw := 3 : Cfg }.WF := by decide +kernel
theorem test_wf_i_mix_reset_out_of_range : ¬ { Cfg.tiny with mixReset := 1001 : Cfg }.WF := by decide +kernel

/-! ## Decoding: a word for every constructor, from 30_encoding.md R81, R86, R89 and vector group V-ENC -/

theorem test_decode_init : decode (.cmd 0b00011010000000001011101110000000#32) = .ok (.init 2 2 48000) := by decide
theorem test_decode_init_3_in : decode (.cmd 0x1E00AC44#32) = .ok (.init 3 2 44100) := by decide
theorem test_decode_setp_time : decode (.cmd 0b00100000000000000000001000000000#32) = .ok (.setpTime 512) := by decide
theorem test_decode_setp_depth : decode (.cmd 0x210003FF#32) = .ok (.setpDepth 1023) := by decide
theorem test_decode_setp_mix : decode (.cmd 0x22FFFC18#32) = .ok (.setpMix (BitVec.ofInt 24 (-1000))) := by decide
theorem test_decode_setp_unknown : decode (.cmd 0x2700007B#32) = .ok (.setpUnknown 7 123) := by decide
theorem test_decode_getp_time : decode (.cmd 0b00110000000000000000000000000000#32) = .ok (.getpTime 0) := by decide
theorem test_decode_getp_depth : decode (.cmd 0x31000000#32) = .ok (.getpDepth 0) := by decide
theorem test_decode_getp_mix : decode (.cmd 0x32000000#32) = .ok (.getpMix 0) := by decide
theorem test_decode_getp_unknown : decode (.cmd 0x37000000#32) = .ok (.getpUnknown 7 0) := by decide
theorem test_decode_render : decode (.cmd 0b01000000111111111111111111111111#32) = .ok (.render 0 16777215) := by decide
theorem test_decode_reserved_op0 : decode (.cmd 0x00000000#32) = .ok (.reservedOp0 0) := by decide
theorem test_decode_reserved_op5 : decode (.cmd 0x50000000#32) = .ok (.reservedOp5 0) := by decide
theorem test_decode_reserved_op6_7 : decode (.cmd 0x70000001#32) = .ok (.reservedOp6_7 0x10000001) := by decide
theorem test_decode_reserved_op8_15 : decode (.cmd 0xFFFFFFFF#32) = .ok (.reservedOp8_15 0x7FFFFFFF) := by decide
theorem test_decode_idle : decode (.seq 0b00000#5) = .ok .idle := by decide
theorem test_decode_blkpro : decode (.seq 0b00001#5) = .ok .blkpro := by decide
theorem test_decode_gsched : decode (.seq 0b00010#5) = .ok .gsched := by decide
theorem test_decode_send : decode (.seq 0b00011#5) = .ok .send := by decide
theorem test_decode_biq_lp : decode (.seq 0b00100#5) = .ok .biqLp := by decide
theorem test_decode_biq_hp : decode (.seq 0b00101#5) = .ok .biqHp := by decide
theorem test_decode_pdly : decode (.seq 0b00110#5) = .ok .pdly := by decide
theorem test_decode_comb : decode (.seq 0b00111#5) = .ok .comb := by decide
theorem test_decode_cnorm : decode (.seq 0b01000#5) = .ok .cnorm := by decide
theorem test_decode_ap : decode (.seq 0b01001#5) = .ok .ap := by decide
theorem test_decode_xfade_l : decode (.seq 0b01010#5) = .ok .xfadeL := by decide
theorem test_decode_sclip_l : decode (.seq 0b01011#5) = .ok .sclipL := by decide
theorem test_decode_xfade_r : decode (.seq 0b01100#5) = .ok .xfadeR := by decide
theorem test_decode_sclip_r : decode (.seq 0b01101#5) = .ok .sclipR := by decide
theorem test_decode_emit : decode (.seq 0b01110#5) = .ok .emit := by decide
theorem test_decode_unused_step_code : decode (.seq 0b01111#5) = .error (.unusedStepCode 15) := by decide
theorem test_decode_table_word :
    decodeTableWord 32 0x220003E8 = some (.setpMix 1000) ∧ decodeTableWord 8 7 = some .comb ∧
    decodeTableWord 8 15 = none := by decide

/-! ## Arithmetic: vector group V-FX -/

theorem test_rtz : rtz 3 1 = 1 ∧ rtz (-3) 1 = -1 ∧ rtz (-1) 24 = 0 ∧ rtz (-16777217) 24 = -1 := by decide
theorem test_sat32 : sat32 2147483648 = q 2147483647 ∧ sat32 (-2147483649) = q (-2147483648) := by decide
theorem test_qmul : qmul (q 8388608) (q (-3)) = q (-1) ∧ qmul (q (-2147483648)) (q (-16777216)) = q 2147483647 ∧
    qmul (q 5592405) (q 50331648) = q 16777215 := by decide
theorem test_acc_out_25 : accOut 25 (accMac (q (-3)) (q 16777216) (accClr ready)) = q (-1) := by decide
/-- Example of R106 and R108. -/
theorem test_acc_addq : (accAddq 16777216#32 (accMac 8388608#32 8388608#32 (accClr ready))).acc.toInt = 351843720888320 ∧
    accOut 24 (accAddq 16777216#32 (accMac 8388608#32 8388608#32 (accClr ready))) = q 20971520 := by decide

/-! ## Delay lines: the writes of vector group V-DL on a line of capacity 4 (comb 1 of `CFG_TINY`) -/

theorem test_delay_line :
    (match dlWrAll (.comb 1) [11, 22, 33, 44, 55] ready with
      | .ok s => some (s.ccur, (dlRd (.comb 1) 1 s).toOption, (dlRd (.comb 1) 2 s).toOption,
          (dlRd (.comb 1) 4 s).toOption)
      | .error _ => none) = some ([0, 1], some 55, some 44, some 22) := by decide +kernel
theorem test_delay_line_words :
    (match dlWrAll (.comb 1) [11, 22, 33, 44, 55] ready with
      | .ok s => s.mem
      | .error _ => []) = [(5, 55), (6, 22), (7, 33), (8, 44)] := by decide +kernel

/-! ## Commands: R171 to R175, R195 to R197, source property S1, program P2 -/

theorem test_init : (after (exec (.init 2 2 48000) (State.resetOf Cfg.tiny))).map
    (fun s => (s.mode, s.rspStatus, s.fbg, s.wetw)) = some (.ready, 0, [8388608, 4194304], 8388608) := by decide +kernel
theorem test_init_reports_the_first_failure : (after (exec (.init 3 2 44100) ready)).map
    (fun s => (s.mode, s.rspStatus, s.rspData)) = some (.uninit, 1, 0) := by decide +kernel
theorem test_setp_time_5000 : (after (exec (.setpTime 5000) ready)).map (·.pTime) = some 1023 := by decide +kernel
theorem test_setp_depth_negative :
    (after (exec (.setpDepth (BitVec.ofInt 24 (-3))) ready)).map (·.pDepth) = some 0 := by decide +kernel
theorem test_setp_mix_minus_5000 :
    (after (exec (.setpMix (BitVec.ofInt 24 (-5000))) ready)).map (·.pMix.toInt) = some (-1000) := by decide +kernel
theorem test_setp_unknown : (after (exec (.setpUnknown 7 123) ready)).map (fun s => (s.rspStatus, s.pTime, s.pDepth)) =
    some (0, 0, 0) := by decide +kernel
theorem test_getp_time : (after (exec (.getpTime 0) { ready with pTime := 1023 })).map (·.rspData) = some 0x3FF := by
  decide +kernel
theorem test_getp_depth : (after (exec (.getpDepth 0) { ready with pDepth := 512 })).map (·.rspData) = some 512 := by
  decide +kernel
theorem test_getp_mix : (after (exec (.getpMix 0) { ready with pMix := BitVec.ofInt 11 (-1000) })).map (·.rspData) =
    some 0xFFFFFC18 := by decide +kernel
theorem test_getp_unknown : (after (exec (.getpUnknown 7 0) ready)).map (·.rspData) = some 0x80000000 := by decide +kernel
theorem test_getp_uninit : (after (exec (.getpTime 0) (State.resetOf Cfg.tiny))).map
    (fun s => (s.rspStatus, s.rspData)) = some (4, 0) := by decide +kernel
theorem test_render_0 : (after (exec (.render 0 0) ready)).map (fun s => (s.seq, s.fcnt, s.rspStatus, s.rspValid)) =
    some (0, 0, 0, true) := by decide +kernel
theorem test_render_10 : (after (exec (.render 0 10) ready)).map (fun s => (s.seq, s.fcnt, s.rspValid)) =
    some (1, 10, false) := by decide +kernel
theorem test_reserved_op0 : (after (exec (.reservedOp0 0) ready)).map (·.rspStatus) = some 5 := by decide +kernel
theorem test_reserved_op5 : (after (exec (.reservedOp5 0) State.reset)).map (·.rspStatus) = some 5 := by decide +kernel
theorem test_reserved_op6_7 : (after (exec (.reservedOp6_7 0) ready)).map (·.rspStatus) = some 5 := by decide +kernel
theorem test_reserved_op8_15 : (after (exec (.reservedOp8_15 0) ready)).map (·.mode) = some .ready := by decide +kernel

/-! ## The internal operations -/

theorem test_idle : (after (exec .idle ready)).map (·.seq) = some 0 := by decide +kernel
/-- Example of R176 (`P_MIX = 500`, `P_DEPTH = 1023`), example of R144 (`P_TIME = 512`). -/
theorem test_blkpro : (after (exec .blkpro { engine 1 0 1 with pTime := 512, pDepth := 1023, pMix := 500 })).map
    (fun s => (s.fbg, s.sendg, s.wetw, s.dryw, s.seq)) =
    some ([12582912, 8388608], 16760832, 12582912, 4194304, 3) := by decide +kernel
/-- The GSCHED table of group V-COMB: `t = 767` gives row 2, `t = 768` row 3. -/
theorem test_gsched : (after (exec .gsched { engine 2 0 1 with pTime := 767 })).map (·.fbg) =
      some [12582912, 8388608] ∧
    (after (exec .gsched { engine 2 0 1 with pTime := 768 })).map (·.fbg) = some [12582912, 12582912] := by decide +kernel
/-- Group V-OUT: depth 1023, (-3, 0) gives -1. -/
theorem test_send : (after (exec .send { engine 3 0 1 with sendg := 16760832, frameIn := [⟨q (-3), 0⟩] })).map
    (fun s => (s.wires.s, s.frameIn, s.seq)) = some (q (-1), [], 4) := by decide +kernel
/-- Group V-OUT: depth 1023, (QMIN, QMIN). -/
theorem test_send_rails : (after (exec .send
    { engine 3 0 1 with sendg := 16760832, frameIn := [⟨q (-2147483648), q (-2147483648)⟩] })).map (·.wires.s) =
    some (q (-2145386496)) := by decide +kernel
/-- V-TONE-1, rows 0 and 1. -/
theorem test_biq_lp : (after (exec .biqLp { engine 4 0 1 with wires := { Wires.zero with s := 16777216 } })).map
    (fun s => (s.wires.t1, s.lpz1.toInt, s.lpz2.toInt)) = some (4194304, 140737488355328, 52776558133248) := by
  decide +kernel
theorem test_biq_lp_second_row : (after (exec .biqLp
    { engine 4 0 1 with lpz1 := 140737488355328, lpz2 := 52776558133248 })).map
    (fun s => (s.wires.t1, s.lpz1.toInt, s.lpz2.toInt)) = some (8388608, 52776558133248, -35184372088832) := by
  decide +kernel
/-- V-TONE-1, row 0, and its saturation note. -/
theorem test_biq_hp : (after (exec .biqHp { engine 5 0 1 with wires := { Wires.zero with t1 := 4194304 } })).map
    (fun s => (s.wires.t2, s.hpz1.toInt, s.hpz2.toInt)) = some (4194304, -35184372088832, 0) := by decide +kernel
theorem test_biq_hp_saturates : (after (exec .biqHp
    { engine 5 0 1 with hpz1 := BitVec.ofInt 72 (-18014398501093376)
                        wires := { Wires.zero with t1 := q (-2147483648) } })).map
    (fun s => (s.wires.t2, s.hpz1.toInt)) = some (q (-2147483648), 18014398509481984) := by decide +kernel
/-- Example of R123, both frames. -/
theorem test_pdly : (after (exec .pdly { engine 6 0 1 with wires := { Wires.zero with t2 := 5 } })).map
    (fun s => (s.wires.p, s.pcur, s.mem)) = some (0, 1, [(0, 5)]) := by decide +kernel
theorem test_pdly_second_frame : (after (exec .pdly
    { engine 6 0 1 with pcur := 1, mem := [(0, 5)], wires := { Wires.zero with t2 := 6 } })).map
    (fun s => (s.wires.p, s.pcur, s.mem)) = some (5, 0, [(0, 5), (1, 6)]) := by decide +kernel
/-- V-COMB, row 2. -/
theorem test_comb : (after (exec .comb { engine 7 0 1 with ccur := [2, 0], mem := [(2, 16777216)] })).map
    (fun s => (s.wires.r, s.ccur, s.dz.map (·.toInt), s.mem)) =
    some ([16777216], [0, 0], [70368744177664, 0], [(2, 16777216), (4, 4194304)]) := by decide +kernel
/-- V-COMB, row 5. -/
theorem test_comb_later_row : (after (exec .comb
    { engine 7 0 1 with ccur := [2, 0], dz := [35184372088832, 0]
                        mem := [(2, 2097152), (3, 2097152), (4, 4194304)] })).map
    (fun s => (s.wires.r, s.dz.map (·.toInt), s.mem)) =
    some ([2097152], [26388279066624, 0], [(2, 2097152), (3, 2097152), (4, 1572864)]) := by decide +kernel
/-- Group V-COMB: CNORM of (1, 1) and of (-3, 0). -/
theorem test_cnorm : (after (exec .cnorm { engine 8 0 1 with wires := { Wires.zero with r := [1, 1] } })).map
    (·.wires.v) = some 1 := by decide +kernel
theorem test_cnorm_negative : (after (exec .cnorm
    { engine 8 0 1 with wires := { Wires.zero with r := [q (-3), 0] } })).map (·.wires.v) = some (q (-1)) := by
  decide +kernel
/-- V-AP-1, rows 0 and 5. -/
theorem test_ap : (after (exec .ap { engine 9 0 1 with wires := { Wires.zero with v := 16777216 } })).map
    (fun s => (s.wires.v, s.acur, s.mem, s.seq)) = some (q (-8388608), [1], [(9, 12582912)], 10) := by decide +kernel
theorem test_ap_later_row : (after (exec .ap
    { engine 9 0 1 with acur := [1], mem := [(9, 786432), (10, 1572864)], wires := { Wires.zero with v := 3 } })).map
    (fun s => (s.wires.v, s.acur, s.mem)) = some (786430, [0], [(9, 786432), (10, 393218)]) := by decide +kernel
/-- Group V-OUT, row `P_MIX = -999`, column A, and row 1, column B. -/
theorem test_xfade_l : (after (exec .xfadeL
    { engine 10 0 1 with wetw := 8388, dryw := 16768828
                         wires := { Wires.zero with xL := 16777216, v := q (-8388608) } })).map (·.wires.mL) =
    some (q 16764634) := by decide +kernel
theorem test_xfade_r : (after (exec .xfadeR
    { engine 12 0 1 with wetw := 8396996, dryw := 8380220
                         wires := { Wires.zero with xR := q (-2147483648), v := q 2147483647 } })).map (·.wires.mR) =
    some (q 2147327) := by decide +kernel
/-- V-SCLIP. -/
theorem test_sclip_l : (after (exec .sclipL { engine 11 0 1 with wires := { Wires.zero with mL := 16777216 } })).map
    (·.wires.yL) = some 15379116 := by decide +kernel
theorem test_sclip_r : (after (exec .sclipR
    { engine 13 0 1 with wires := { Wires.zero with mR := q (-2147483648) } })).map (·.wires.yR) =
    some (q (-22369622)) := by decide +kernel
theorem test_emit_last : (after (exec .emit { engine 14 0 1 with wires := { Wires.zero with yL := 7, yR := 8 } })).map
    (fun s => (s.outL, s.outR, s.fcnt, s.seq, s.rspOut)) = some (7, 8, 0, 0, [⟨0, 0⟩]) := by decide +kernel
theorem test_emit_more : (after (exec .emit (engine 14 0 2))).map (fun s => (s.fcnt, s.seq, s.rspOut)) =
    some (1, 3, []) := by decide +kernel

/-- A word placed after reset runs in the next step. -/
theorem test_fetch_word : (after (step (State.reset.withFetchWord 32 0x1A00BB80))).map (·.mode) = some .ready := by
  decide +kernel
theorem test_fetch_step : (after (step (State.reset.withFetchWord 8 7))).map (·.idx) = some 1 := by decide +kernel

/-! ## Witnesses: for every statement with hypotheses, a state and operands that meet all of them together, and one at a
boundary value for each clause -/

theorem goes_on (o : Result) (h : (after o).isSome = true) : ∃ t, o = .next t := by
  cases o with
  | next s => exact ⟨s, rfl⟩
  | fault f => cases h
  | refused r => cases h

/-- The engine between commands with commands and frames offered. -/
def offered (ws : List CmdWord) (fs : List Frame) : State := { ready with cmdIn := ws, frameIn := fs }

/-- The engine in front of a frame of one sample pair. -/
def atSend : State := { engine 3 0 1 with frameIn := [⟨16777216, q (-8388608)⟩] }

/-- The engine in front of its last comb line. -/
def atLastComb : State := { engine 7 1 1 with wires := { Wires.zero with r := [5] } }

/-- `CFG_TINY` with a second all-pass line, and with no pre-delay. -/
def twoAps : Cfg := { Cfg.tiny with aps := [⟨1, 2, 8388608#32⟩, ⟨2, 2, 8388608#32⟩], preD := 1 }

/-- An engine of that configuration. -/
def twoApsEngine (code : BitVec 5) : State := { engine code 0 1 with cfg := twoAps, acur := [1, 0] }

theorem ready_inv : ready.Inv := by
  constructor <;> first | decide +kernel | (intro _; constructor <;> decide +kernel)
theorem offered_inv : (offered [0x40000001#32] [⟨1, 2⟩]).Inv := by
  constructor <;> first | decide +kernel | (intro _; constructor <;> decide +kernel)
theorem offered_two_inv : (offered [] [⟨1, 2⟩, ⟨3, 4⟩]).Inv := by
  constructor <;> first | decide +kernel | (intro _; constructor <;> decide +kernel)
theorem atSend_inv : atSend.Inv := by
  constructor <;> first | decide +kernel | (intro _; constructor <;> decide +kernel)
theorem atLastComb_inv : atLastComb.Inv := by
  constructor <;> first | decide +kernel | (intro _; constructor <;> decide +kernel)
theorem atSend_silent : atSend.Silent := by constructor <;> decide +kernel

theorem witness_DecodeUndoesEncode : (Instr.setpUnknown 3 0).wf = true ∧ (Instr.getpUnknown 15 0xFFFFFF).wf = true ∧
    (Instr.render 15 0xFFFFFF).wf = true := by decide
theorem witness_EncodeUndoesDecode :
    decode (.cmd 0x40FFFFFF#32) = .ok (.render 0 0xFFFFFF) ∧ decode (.seq 14#5) = .ok .emit := by decide
theorem witness_DecodeTakesFirstTableRow :
    (fieldOp 0x21000000#32 = fieldOp 0x21FFFFFF#32 ∧ fieldA 0x21000000#32 = fieldA 0x21FFFFFF#32) ∧
    (fieldOp 0x16000000#32 = fieldOp 0x1A00BB80#32 ∧ fieldOp 0x16000000#32 ≠ 2#4 ∧ fieldOp 0x16000000#32 ≠ 3#4) := by
  decide
theorem witness_UnusedStepCodesHaveNoOperation : (14#5).toNat ≤ 14 ∧ 14 < (15#5).toNat ∧ 14 < (31#5).toNat := by decide
theorem witness_SaturationCutsToRails : (-2147483649 : Int) < -(2 ^ 31) ∧ (2 ^ 31 - 1 : Int) < 2147483648 ∧
    (-(2 ^ 31) ≤ (-2147483648 : Int) ∧ (-2147483648 : Int) ≤ 2 ^ 31 - 1) ∧
    (-(2 ^ 31) ≤ (2147483647 : Int) ∧ (2147483647 : Int) ≤ 2 ^ 31 - 1) := by decide
theorem witness_RoundingTowardZeroLaws : (-1 : Int) ≤ 0 ∧ ((0 : Int) ≤ 0 ∧ 0 ≤ (0 : Int) + 3 * 2 ^ 1) ∧
    ((-1 : Int) ≤ 0 ∧ (-1 : Int) + -1 * 2 ^ 1 ≤ 0) ∧ (2 ^ 1 : Int) ∣ 4 := by decide
theorem witness_SampleProductLaws : |(1#32).toInt * (16777215#32).toInt| < 2 ^ 24 ∧
    ((q 2147483647).toInt ≠ qMin ∧ (qmul (q 2147483647) (q 2147483647)).toInt ≠ qMin) ∧
    (q 3).toInt ≠ qMin ∧ (qmul (q 3) (q 16777216)).toInt ≠ qMin ∧ (qmul (-(q 3)) (q 16777216)).toInt ≠ qMin := by decide
/-- The sum at the top of the register, at its bottom, and in the middle. -/
theorem witness_AccumulatorOperationsAreExact :
    (setAcc (BitVec.ofInt 72 (2 ^ 71 - 2)) ready).acc.toInt + (1#32).toInt * (1#32).toInt < 2 ^ 71 ∧
    -(2 ^ 71) ≤ (setAcc (BitVec.ofInt 72 (1 - 2 ^ 71)) ready).acc.toInt - (1#32).toInt * (1#32).toInt ∧
    (-(2 ^ 71) ≤ ready.acc.toInt + (q (-2147483648)).toInt * 2 ^ 24 ∧
      ready.acc.toInt + (q (-2147483648)).toInt * 2 ^ 24 < 2 ^ 71) := by decide +kernel
theorem witness_BiquadMeetsDifferenceEquation :
    readTap ready .lpz1 = 0 ∧ readTap ready .lpz2 = 0 ∧ readTap ready .hpz1 = 0 ∧ readTap ready .hpz2 = 0 := by
  decide +kernel
theorem witness_OnePoleMeetsDifferenceEquation : 1 < ready.dz.length ∧ readTap ready (.dz 1) = 0 := by decide +kernel
theorem witness_LineRegionsTileTheMemory :
    (0 + 1 < Cfg.tiny.n ∧ 1 + 1 = Cfg.tiny.n ∧ 0 + 1 = Cfg.tiny.m ∧ 0 + 1 < Cfg.ref.m) ∧
    (LineId.comb 1 ≠ .ap 0 ∧ lineBase Cfg.tiny (.comb 1) ≤ 8 ∧
      8 < lineBase Cfg.tiny (.comb 1) + lineCap Cfg.tiny (.comb 1)) ∧
    (ready.cfg = Cfg.tiny ∧ ready.cursorOk (.ap 0)) := by decide +kernel
theorem witness_DelayReadAddressesBehindCursor : 1 ≤ 1 ∧ 4 ≤ lineCap ready.cfg (.comb 1) ∧ ready.cursorOk (.comb 1) ∧
    lineBase ready.cfg (.comb 1) + lineCap ready.cfg (.comb 1) ≤ ready.cfg.memWords := by decide +kernel
theorem witness_DelayWriteStoresAndAdvances : atLastComb.hasLine (.comb 1) ∧ atLastComb.mem.wf = true ∧
    atLastComb.cursorOk (.comb 1) ∧
    lineBase atLastComb.cfg (.comb 1) + lineCap atLastComb.cfg (.comb 1) ≤ atLastComb.cfg.memWords :=
  ⟨⟨by decide +kernel, by decide +kernel⟩, by decide +kernel, by decide +kernel, by decide +kernel⟩
/-- A line of capacity 4 with two values written: offsets 1 and 2 fall under the first case, 3 and 4 under the other. -/
theorem witness_DelayLaw : ready.hasLine (.comb 1) ∧ ready.mem.wf = true ∧ ready.cursorOk (.comb 1) ∧
    lineBase ready.cfg (.comb 1) + lineCap ready.cfg (.comb 1) ≤ ready.cfg.memWords ∧
    (∀ a, lineBase ready.cfg (.comb 1) ≤ a → a < lineBase ready.cfg (.comb 1) + lineCap ready.cfg (.comb 1) →
      ready.mem.read a = 0) ∧
    (2 ≤ [q 11, q 22].length ∧ ¬ 3 ≤ [q 11, q 22].length ∧ 4 ≤ lineCap ready.cfg (.comb 1)) :=
  ⟨⟨by decide +kernel, by decide +kernel⟩, by decide +kernel, by decide +kernel, by decide +kernel,
    fun _ _ _ => rfl, by decide +kernel⟩

theorem witness_InitClearsTheEngine : ready.cfg.WF ∧ (48000#24).toNat = ready.cfg.fsHz ∧ (2#2).toNat = 2 ∧
    ready.cfg.reqWords ≤ ready.cfg.memWords := by decide +kernel
/-- `MEM_WORDS = REQ_WORDS` succeeds (R171). -/
theorem witness_InitClearsTheEngine_exact_storage :
    { Cfg.tiny with memWords := 11 : Cfg }.WF ∧
      { Cfg.tiny with memWords := 11 : Cfg }.reqWords ≤ { Cfg.tiny with memWords := 11 : Cfg }.memWords := by decide +kernel
theorem witness_FailedInitDestroysTheEngine : (47999#24).toNat ≠ ready.cfg.fsHz ∧ (3#2).toNat ≠ 2 ∧ (1#2).toNat ≠ 2 ∧
    { Cfg.tiny with memWords := 10 : Cfg }.memWords < { Cfg.tiny with memWords := 10 : Cfg }.reqWords := by decide +kernel
theorem witness_StatusPriority : (∃ t, exec (.init 3 2 44100) ready = .next t) ∧
    (∃ t, exec (.reservedOp5 0) ready = .next t) ∧
    ((State.resetOf Cfg.tiny).mode = .uninit ∧ ∃ t, exec (.render 0 1) (State.resetOf Cfg.tiny) = .next t) :=
  ⟨goes_on _ (by decide +kernel), goes_on _ (by decide +kernel), rfl, goes_on _ (by decide +kernel)⟩
theorem witness_SetpStoresClampedParameter : ready.mode = .ready := rfl
theorem witness_GetpAnswersParameter : ready.mode = .ready := rfl
theorem witness_GetpAfterSetpAnswersClampedValue : ready.mode = .ready := rfl
theorem witness_UninitEngineRefusesCommands : State.reset.mode = .uninit ∧
    Instr.render 0 1 ∈ [Instr.setpTime 1, .render 0 1] := by decide +kernel
theorem witness_ReservedWordsAreIllegal : Instr.reservedOp8_15 5 ∈
    [Instr.reservedOp0 1, .reservedOp5 1, .reservedOp6_7 2, .reservedOp8_15 5] := by decide
theorem witness_RenderStartsTheSchedule : ready.mode = .ready ∧ (0#24 = 0) ∧ (1#24 ≠ 0) ∧ (0xFFFFFF#24 ≠ 0) := by
  decide +kernel
theorem witness_ExactlyOneResponsePerCommand :
    (givesResponse (engine 14 0 1) .emit ∧ ∃ t, exec .emit (engine 14 0 1) = .next t) ∧
    (¬ givesResponse (engine 14 0 2) .emit ∧ ∃ t, exec .emit (engine 14 0 2) = .next t) :=
  ⟨⟨(rfl : (engine 14 0 1).fcnt = 1), goes_on _ (by decide +kernel)⟩,
    (by decide : ¬ (engine 14 0 2).fcnt = 1), goes_on _ (by decide +kernel)⟩

/-- Both ends of the legal range of `P_MIX`. -/
theorem witness_BlockPrologueLatchesParameters : ready.cfg.WF ∧ (-1000 ≤ (BitVec.ofInt 11 (-1000)).toInt) ∧
    (BitVec.ofInt 11 1000).toInt ≤ 1000 ∧ -1000 ≤ ready.pMix.toInt ∧ ready.pMix.toInt ≤ 1000 := by decide +kernel
theorem witness_GainSchedulerSelectsTableRow : ready.cfg.WF ∧ 1 < ready.cfg.n := by decide +kernel
theorem witness_SendScalesTheMeanOfTheFrame : atSend.frameIn = ⟨16777216, q (-8388608)⟩ :: [] ∧
    0 ≤ atSend.sendg.toInt ∧ ((16760832 : Q).toInt ≤ 1023 * 2 ^ 14) := by decide +kernel
theorem witness_SendWaitsForAFrame : (engine 3 0 1).frameIn = [] := rfl
/-- Zero taps, and taps at the bounds. -/
theorem witness_BiquadsFollowTheirRule : QA.within ready.lpz1 64 ∧ QA.within ready.lpz2 63 ∧
    QA.within (BitVec.ofInt 72 (2 ^ 64)) 64 ∧ QA.within (BitVec.ofInt 72 (-(2 ^ 63))) 63 ∧
    QA.within ready.hpz1 64 ∧ QA.within ready.hpz2 63 := by decide +kernel
theorem witness_PreDelayWritesThenReads :
    (ready.cfg.WF ∧ ready.cfg.reqWords ≤ ready.cfg.memWords ∧ ready.cursorOk .pre ∧ ready.mem.wf = true) ∧
    ((twoApsEngine 6).cfg.WF ∧ (twoApsEngine 6).cfg.preD = 1 ∧
      (twoApsEngine 6).cfg.reqWords ≤ (twoApsEngine 6).cfg.memWords ∧ (twoApsEngine 6).cursorOk .pre) := by decide +kernel
theorem witness_CombLineFollowsItsRule : ((engine 7 0 1).idx.toNat = 0 ∧ 0 + 1 < (engine 7 0 1).cfg.n) ∧
    (1 = atLastComb.idx.toNat ∧ 1 < atLastComb.cfg.n ∧ 1 + 1 = atLastComb.cfg.n ∧ atLastComb.cfg.WF ∧
      atLastComb.cfg.reqWords ≤ atLastComb.cfg.memWords ∧ atLastComb.dz.length = atLastComb.cfg.n ∧
      atLastComb.ccur.length = atLastComb.cfg.n ∧ atLastComb.fbg.length = atLastComb.cfg.n ∧
      atLastComb.cursorOk (.comb 1) ∧ atLastComb.mem.wf = true ∧ QA.within (atLastComb.dz.getD 1 0) 63) := by
  decide +kernel
theorem witness_NormalisationScalesTheExactSum : (List.replicate 64 (q 2147483647)).length ≤ 64 := by decide
theorem witness_AllPassLineFollowsItsRule :
    (0 = (engine 9 0 1).idx.toNat ∧ 0 + 1 = (engine 9 0 1).cfg.m) ∧
    (0 = (twoApsEngine 9).idx.toNat ∧ 0 + 1 < (twoApsEngine 9).cfg.m ∧ (twoApsEngine 9).cfg.WF ∧
      (twoApsEngine 9).cfg.reqWords ≤ (twoApsEngine 9).cfg.memWords ∧
      (twoApsEngine 9).acur.length = (twoApsEngine 9).cfg.m ∧ (twoApsEngine 9).cursorOk (.ap 0) ∧
      (twoApsEngine 9).mem.wf = true) := by decide +kernel
theorem witness_CrossfadeBoundariesAreExact : (0 ≤ ready.wetw.toInt ∧ ready.wetw.toInt ≤ 2 ^ 24 ∧
      ready.dryw.toInt = 2 ^ 24 - ready.wetw.toInt) ∧
    ((0#32).toInt = 0 ∧ (16777216#32).toInt = 2 ^ 24 - (0#32).toInt) ∧ (16777216#32).toInt = 2 ^ 24 := by decide +kernel
theorem witness_SoftClipIsBoundedAndOdd : 0 < Cfg.tiny.scPost.toInt ∧ (q 2147483647).toInt ≠ qMin := by decide +kernel
theorem witness_EmitPresentsTheFrame : (engine 14 0 1).fcnt ≠ 0 ∧ (engine 14 0 1).fcnt.toNat = 1 ∧
    (engine 14 0 2).fcnt ≠ 0 ∧ (engine 14 0 2).fcnt.toNat ≠ 1 := by decide +kernel

theorem witness_StepRunsTheDecodedInstruction :
    ((offered [0x40000001#32] []).cfg.WF ∧ (offered [0x40000001#32] []).rst = false ∧
      (offered [0x40000001#32] []).seq = Seq.idle ∧ (offered [0x40000001#32] []).cmdIn = 0x40000001#32 :: []) ∧
    (ready.seq = Seq.idle ∧ ready.cmdIn = []) ∧ (atSend.seq ≠ Seq.idle ∧ decode (.seq atSend.seq) = .ok .send) := by
  decide +kernel
theorem witness_ResetAbandonsEverything : { atSend with rst := true : State }.cfg.WF ∧
    { atSend with rst := true : State }.rst = true := by decide +kernel
theorem witness_IllFormedConfigurationIsRefused :
    ¬ { ready with cfg := { Cfg.tiny with preD := 0 } : State }.cfg.WF ∧
    ((engine 15 0 1).cfg.WF ∧ (engine 15 0 1).rst = false ∧ 14 < (engine 15 0 1).seq.toNat) := by decide +kernel
theorem witness_InvariantHoldsAtReset : Cfg.tiny.WF := by decide +kernel
theorem witness_StepKeepsTheInvariant : (atLastComb.Inv ∧ ∃ t, step atLastComb = .next t) ∧
    (ready.Inv ∧ ∃ t, step ready = .next t) :=
  ⟨⟨atLastComb_inv, goes_on _ (by decide +kernel)⟩, ready_inv, goes_on _ (by decide +kernel)⟩
theorem witness_GoodStatesNeverStop : atSend.Inv ∧ State.Inv (engine 14 0 1) :=
  ⟨atSend_inv, by constructor <;> first | decide +kernel | (intro _; constructor <;> decide +kernel)⟩
theorem witness_RenderTakesAndGivesExactlyItsFrames : ∃ s : State, s.Inv ∧ s.rst = false ∧ s.mode = .ready ∧
    s.seq = Seq.idle ∧ s.cmdIn = 0x40000001#32 :: [] ∧ decodeCmd 0x40000001#32 = .render 0 1 ∧ (1#24 ≠ 0) ∧
    (1#24).toNat ≤ s.frameIn.length :=
  ⟨_, offered_inv, rfl, rfl, rfl, rfl, by decide, by decide, by decide +kernel⟩
theorem witness_SplittingABlockChangesNothing : ∃ s : State, s.Inv ∧ s.rst = false ∧ s.mode = .ready ∧
    s.seq = Seq.idle ∧ decodeCmd 0x40000001#32 = .render 0 1 ∧ decodeCmd 0x40000002#32 = .render 0 2 ∧ (1#24 ≠ 0) ∧
    (1#24).toNat + (1#24).toNat = (2#24).toNat ∧ (2#24).toNat ≤ s.frameIn.length :=
  ⟨_, offered_two_inv, rfl, rfl, rfl, by decide, by decide, by decide, by decide, by decide +kernel⟩
theorem witness_SilentFrameStaysSilent : atSend.Inv ∧ atSend.rst = false ∧ atSend.seq = Seq.send ∧
    atSend.frameIn = ⟨16777216, q (-8388608)⟩ :: [] ∧ atSend.Silent ∧
    sat32 (rtz (((16777216 : Q).toInt + (q (-8388608)).toInt) * atSend.sendg.toInt) 25) = 0 :=
  ⟨atSend_inv, rfl, rfl, rfl, atSend_silent, by decide +kernel⟩
theorem witness_WetSampleIgnoresTheFramesOwnInput : atSend.Inv ∧ atSend.rst = false ∧ atSend.seq = Seq.send :=
  ⟨atSend_inv, rfl, rfl⟩
theorem witness_AccumulatorCarriesNothingOver : (∃ t, exec .comb (engine 7 0 1) = .next t) ∧
    ∃ f, exec .comb (engine 7 5 1) = .fault f :=
  ⟨goes_on _ (by decide +kernel), .noSuchLine, rfl⟩
theorem witness_ParametersAndModeHaveOneWriter :
    (∃ t, exec .blkpro (engine 1 0 1) = .next t) ∧ ∀ a b f, Instr.blkpro ≠ .init a b f :=
  ⟨goes_on _ (by decide +kernel), fun _ _ _ h => by cases h⟩
theorem witness_LatchesChangeOnlyAtABlockStart : (∃ t, exec (.setpTime 5) ready = .next t) ∧
    (∀ a b f, Instr.setpTime 5 ≠ .init a b f) ∧ Instr.setpTime 5 ≠ .blkpro ∧ Instr.setpTime 5 ≠ .gsched :=
  ⟨goes_on _ (by decide +kernel), (fun _ _ _ h => by cases h), by decide, by decide⟩
theorem witness_DatapathIsOwnedByItsStage : (∃ t, exec .pdly (engine 6 0 1) = .next t) ∧
    (∀ a b f, Instr.pdly ≠ .init a b f) ∧ Instr.pdly ≠ .comb ∧ Instr.pdly ≠ .ap :=
  ⟨goes_on _ (by decide +kernel), (fun _ _ _ h => by cases h), by decide, by decide⟩
/-- The storing operations, each on a legal cursor of its own line, with another line and an address outside its region. -/
theorem witness_DatapathIsOwnedByItsStage_stores : (engine 6 0 1).mem.wf = true ∧
    ((engine 6 0 1).cursorOk .pre ∧ 2 ≠ writeAddr .pre (engine 6 0 1) ∧ lineCap (engine 6 0 1).cfg .pre ≤ 2) ∧
    ((∃ t, exec .comb atLastComb = .next t) ∧ atLastComb.mem.wf = true ∧ 0 ≠ atLastComb.idx.toNat ∧
      atLastComb.cursorOk (.comb atLastComb.idx.toNat) ∧ 9 ≠ writeAddr (.comb atLastComb.idx.toNat) atLastComb ∧
      lineBase atLastComb.cfg (.comb atLastComb.idx.toNat) + lineCap atLastComb.cfg (.comb atLastComb.idx.toNat) ≤ 9) ∧
    ((∃ t, exec .ap (twoApsEngine 9) = .next t) ∧ (twoApsEngine 9).mem.wf = true ∧ 1 ≠ (twoApsEngine 9).idx.toNat ∧
      (twoApsEngine 9).cursorOk (.ap 0) ∧ 8 ≠ writeAddr (.ap 0) (twoApsEngine 9) ∧
      8 < lineBase (twoApsEngine 9).cfg (.ap 0)) :=
  ⟨by decide +kernel, by decide +kernel, ⟨goes_on _ (by decide +kernel), by decide +kernel⟩,
    goes_on _ (by decide +kernel), by decide +kernel⟩
theorem witness_WordsBeyondTheLinesNeverChange : atLastComb.Inv ∧ atLastComb.rst = false ∧
    (∃ t, step atLastComb = .next t) ∧ atLastComb.cfg.reqWords ≤ 11 :=
  ⟨atLastComb_inv, rfl, goes_on _ (by decide +kernel), by decide +kernel⟩

end Sys2Proof.Tests
end

section
/-! PROOFS. Family 00_scope.md: which steps are refused (O44), and who writes the control registers (O54). -/

namespace Sys2Proof

/-! ### Unused STEP codes (R89) -/

/-- The STEP codes above 14 are the unused ones. -/
theorem decodeSeq_unused {c : BitVec 5} (h : 14 < c.toNat) : decodeSeq c = .error (.unusedStepCode c) := by
  have hne : ∀ used : BitVec 5, used.toNat ≤ 14 → c ≠ used := by
    rintro used hused rfl
    omega
  simp (disch := decide) only [decodeSeq, hne, if_false]

namespace Machine

/-- Inside a RENDER the `STEP` register alone says what runs next, whatever the host offers. -/
theorem fetchCode_of_busy {s : State} (h : s.seq ≠ Seq.idle) : fetchCode s = .seq s.seq := by
  simp [fetchCode, State.cmdReady, h]

/-! ### What `step` refuses -/

theorem step_of_not_wf {s : State} (h : ¬ s.cfg.WF) : step s = .refused .illFormedConfig := if_neg h

theorem step_of_decode_error {s : State} {e : DecodeError} (hwf : s.cfg.WF) (hrst : s.rst = false)
    (hdec : decode (fetchCode s) = .error e) : step s = .refused .unusedStep := by
  simp only [step, if_pos hwf, hrst, Bool.false_eq_true, if_false, hdec]

/-! ### The control registers

`cfg`, `MODE` and the three parameter registers, seen as one value, so that "writes none of them" is one equation. -/

/-- What the host configures and sets: `CFG`, `MODE`, `P_TIME`, `P_DEPTH`, `P_MIX` (R7, R24, R29 to R31). -/
structure Control where
  cfg : Cfg
  mode : Mode
  pTime : BitVec 10
  pDepth : BitVec 10
  pMix : BitVec 11

/-- The control registers of a state. -/
def State.control (s : State) : Control := ⟨s.cfg, s.mode, s.pTime, s.pDepth, s.pMix⟩

/-- Two states have the same control registers exactly when each of the five is the same. -/
theorem control_eq_iff {s t : State} : t.control = s.control ↔
    t.cfg = s.cfg ∧ t.mode = s.mode ∧ t.pTime = s.pTime ∧ t.pDepth = s.pDepth ∧ t.pMix = s.pMix := by
  simp [State.control]

/-! No shared operation of the datapath, the sequencer or the ports touches a control register. -/

@[simp] theorem setAcc_control (v : QA) (s : State) : (setAcc v s).control = s.control := rfl
@[simp] theorem setWires_control (w : Wires) (s : State) : (setWires w s).control = s.control := rfl
@[simp] theorem respond_control (st : BitVec 4) (d : BitVec 32) (s : State) :
    (respond st d s).control = s.control := rfl
@[simp] theorem gschedule_control (s : State) : (gschedule s).control = s.control := rfl
@[simp] theorem latchBlock_control (s : State) : (latchBlock s).control = s.control := rfl

@[simp] theorem setTap_control (z : Tap) (v : QA) (s : State) : (setTap z v s).control = s.control := by
  simp [control_eq_iff]

@[simp] theorem setCursor_control (l : LineId) (v : Nat) (s : State) : (setCursor l v s).control = s.control := by
  simp [control_eq_iff]

@[simp] theorem nextLine_control (here after : BitVec 5) (count : Nat) (s : State) :
    (nextLine here after count s).control = s.control := by
  unfold nextLine
  split <;> rfl

@[simp] theorem iir1_control (co : Coef1) (z : Tap) (x : Q) (s : State) : (iir1 co z x s).2.control = s.control := by
  simp [iir1_eq]

@[simp] theorem biq_control (co : Coef2) (z1 z2 : Tap) (x : Q) (s : State) :
    (biq co z1 z2 x s).2.control = s.control := by
  simp [biq_eq]

@[simp] theorem sumLines_control (norm : Q) (rs : List Q) (s : State) :
    (sumLines norm rs s).control = s.control := by
  simp [sumLines_eq]

@[simp] theorem xfade_control (x w : Q) (s : State) : (xfade x w s).2.control = s.control := by
  simp [xfade_eq]

@[simp] theorem combMix_control (p d g : Q) (s : State) : (combMix p d g s).2.control = s.control := by
  simp [combMix_eq]

@[simp] theorem apOut_control (del g v : Q) (s : State) : (apOut del g v s).2.control = s.control := by
  simp [apOut_eq]

@[simp] theorem apBack_control (v g o : Q) (s : State) : (apBack v g o s).2.control = s.control := by
  simp [apBack_eq]

@[simp] theorem sclip_control (m : Q) (s : State) : (sclip m s).2.control = s.control := by
  obtain ⟨v, hv⟩ := sclip_state m s
  rw [hv, setAcc_control]

theorem dlWr_control {l : LineId} {v : Q} {s t : State} (h : dlWr l v s = .ok t) : t.control = s.control := by
  obtain ⟨-, rfl⟩ := dlWr_cases h
  rw [setCursor_control]
  rfl

/-! ### The meanings, one by one where they branch -/

/-- What holds of the refusal and of the act of a READY engine holds of a command that waits for READY. -/
theorem whenReady_of {P : State → Prop} {act : State → State} {s : State}
    (hrefuse : P (respond Status.errUninit 0 s)) (hact : P (act s)) : P (whenReady s act) := by
  unfold whenReady
  split
  · exact hrefuse
  · exact hact

/-- A command that waits for READY keeps the control registers if its act does: the refusal writes none. -/
theorem whenReady_control {act : State → State} {s : State} (h : (act s).control = s.control) :
    (whenReady s act).control = s.control :=
  whenReady_of (P := fun t => t.control = s.control) rfl h

/-- An outcome's state keeps the control registers if the state the meaning wrote down does. -/
theorem control_of_next {s t u : State} (h : (.next u : Result) = .next t) (hu : u.control = s.control) :
    t.control = s.control := by
  cases h
  exact hu

/-- An operation of the frame schedule ends by setting the wires and moving the sequencer, which writes no control register:
what is left to show is about the state `u` that its computation gives. -/
theorem control_of_stage {code : BitVec 5} {idx : BitVec 6} {w : Wires} {s t u : State}
    (h : (.next (goto code idx (setWires w u)) : Result) = .next t) (hu : u.control = s.control) :
    t.control = s.control :=
  control_of_next h hu

theorem execRender_control {ign : BitVec 4} {n : BitVec 24} {s t : State} (h : execRender ign n s = .next t) :
    t.control = s.control := by
  refine control_of_next h (whenReady_control ?_)
  split <;> rfl

theorem execSend_control {s t : State} (h : execSend s = .next t) : t.control = s.control := by
  unfold execSend at h
  split at h
  · exact control_of_next h rfl
  · exact control_of_stage h rfl

theorem execPdly_control {s t : State} (h : execPdly s = .next t) : t.control = s.control := by
  unfold execPdly at h
  split at h
  · cases h
  next s1 hwr =>
    split at h
    · cases h
    · exact control_of_stage h (dlWr_control hwr)

theorem execComb_control {s t : State} (h : execComb s = .next t) : t.control = s.control := by
  simp only [execComb] at h
  split at h
  · split at h
    · cases h
    · split at h
      · cases h
      next s3 hwr => exact control_of_next h (by simp [dlWr_control hwr])
  · cases h

theorem execAp_control {s t : State} (h : execAp s = .next t) : t.control = s.control := by
  simp only [execAp] at h
  split at h
  · split at h
    · cases h
    · split at h
      · cases h
      next s3 hwr => exact control_of_next h (by simp [dlWr_control hwr])
  · cases h

theorem execEmit_control {s t : State} (h : execEmit s = .next t) : t.control = s.control := by
  simp only [execEmit] at h
  split at h
  · exact control_of_next h rfl
  · exact control_of_next h rfl

/-- INIT, whether it succeeds or fails, leaves the configuration as it is (R7, R171, R195). -/
theorem execInit_cfg {inch outch : BitVec 2} {fs : BitVec 24} {s t : State} (h : execInit inch outch fs s = .next t) :
    t.cfg = s.cfg := by
  unfold execInit at h
  split at h
  · cases h; rfl
  · cases h; rfl

/-- SETP TIME writes no control register but `P_TIME` (R173). -/
theorem execSetpTime_control {v : BitVec 24} {s t : State} (h : execSetpTime v s = .next t) :
    t.control = { s.control with pTime := t.pTime } := by
  cases h
  exact whenReady_of (P := fun t => t.control = { s.control with pTime := t.pTime }) rfl rfl

/-- SETP DEPTH writes no control register but `P_DEPTH` (R173). -/
theorem execSetpDepth_control {v : BitVec 24} {s t : State} (h : execSetpDepth v s = .next t) :
    t.control = { s.control with pDepth := t.pDepth } := by
  cases h
  exact whenReady_of (P := fun t => t.control = { s.control with pDepth := t.pDepth }) rfl rfl

/-- SETP MIX writes no control register but `P_MIX` (R173). -/
theorem execSetpMix_control {v : BitVec 24} {s t : State} (h : execSetpMix v s = .next t) :
    t.control = { s.control with pMix := t.pMix } := by
  cases h
  exact whenReady_of (P := fun t => t.control = { s.control with pMix := t.pMix }) rfl rfl

/-- Everything an instruction can do to the control registers: INIT keeps the configuration, each SETP of a known
identifier keeps all but its own register, every other instruction keeps them all. -/
theorem exec_control_cases {i : Instr} {s t : State} (h : exec i s = .next t) :
    t.control = s.control ∨
    (∃ a b f, i = .init a b f ∧ t.cfg = s.cfg) ∨
    (∃ v, i = .setpTime v ∧ t.control = { s.control with pTime := t.pTime }) ∨
    (∃ v, i = .setpDepth v ∧ t.control = { s.control with pDepth := t.pDepth }) ∨
    (∃ v, i = .setpMix v ∧ t.control = { s.control with pMix := t.pMix }) := by
  cases i with
  | init a b f => exact .inr (.inl ⟨a, b, f, rfl, execInit_cfg h⟩)
  | setpTime v => exact .inr (.inr (.inl ⟨v, rfl, execSetpTime_control h⟩))
  | setpDepth v => exact .inr (.inr (.inr (.inl ⟨v, rfl, execSetpDepth_control h⟩)))
  | setpMix v => exact .inr (.inr (.inr (.inr ⟨v, rfl, execSetpMix_control h⟩)))
  | setpUnknown | getpTime | getpDepth | getpMix | getpUnknown =>
    exact .inl (control_of_next h (whenReady_control rfl))
  | render ign n => exact .inl (execRender_control (ign := ign) h)
  | reservedOp0 | reservedOp5 | reservedOp6_7 | reservedOp8_15 =>
    exact .inl (control_of_next h (respond_control Status.errIllegal 0 s))
  | idle => exact .inl (control_of_next h rfl)
  | send => exact .inl (execSend_control h)
  | pdly => exact .inl (execPdly_control h)
  | comb => exact .inl (execComb_control h)
  | ap => exact .inl (execAp_control h)
  | emit => exact .inl (execEmit_control h)
  | blkpro => exact .inl (control_of_next h (latchBlock_control s))
  | gsched => exact .inl (control_of_next h (gschedule_control s))
  | biqLp | biqHp => exact .inl (control_of_stage h (biq_control ..))
  | cnorm => exact .inl (control_of_stage h (sumLines_control ..))
  | xfadeL | xfadeR => exact .inl (control_of_stage h (xfade_control ..))
  | sclipL | sclipR => exact .inl (control_of_stage h (sclip_control ..))

end Machine

/-! ### The obligations -/

open Machine

/-- Settles O44: `step` looks at the configuration first, and inside a RENDER it decodes the `STEP` register. -/
theorem illFormedConfigurationIsRefused : Obligations.IllFormedConfigurationIsRefused := by
  refine ⟨fun s hwf => step_of_not_wf hwf, fun s hwf hrst hseq => ?_⟩
  have hbusy : s.seq ≠ Seq.idle := fun hidle => absurd hseq (by simp [hidle])
  have hdec : decode (fetchCode s) = .error (.unusedStepCode s.seq) := by
    rw [fetchCode_of_busy hbusy]
    exact decodeSeq_unused hseq
  exact step_of_decode_error hwf hrst hdec

/-- Settles O54: the inversion lemma `exec_control_cases` leaves INIT and each SETP the registers it owns. -/
theorem parametersAndModeHaveOneWriter : Obligations.ParametersAndModeHaveOneWriter := by
  intro i s t h
  rcases exec_control_cases h with hall | ⟨a, b, f, rfl, hcfg⟩ | ⟨v, rfl, hown⟩ | ⟨v, rfl, hown⟩ | ⟨v, rfl, hown⟩
  · obtain ⟨hcfg, hmode, htime, hdepth, hmix⟩ := control_eq_iff.mp hall
    exact ⟨hcfg, fun _ => ⟨hmode, fun _ => htime, fun _ => hdepth, fun _ => hmix⟩⟩
  · exact ⟨hcfg, fun hinit => absurd rfl (hinit a b f)⟩
  · obtain ⟨hcfg, hmode, hdepth, hmix⟩ := by simpa [State.control] using hown
    exact ⟨hcfg, fun _ => ⟨hmode, fun hne => absurd rfl (hne v), fun _ => hdepth, fun _ => hmix⟩⟩
  · obtain ⟨hcfg, hmode, htime, hmix⟩ := by simpa [State.control] using hown
    exact ⟨hcfg, fun _ => ⟨hmode, fun _ => htime, fun hne => absurd rfl (hne v), fun _ => hmix⟩⟩
  · obtain ⟨hcfg, hmode, htime, hdepth⟩ := by simpa [State.control] using hown
    exact ⟨hcfg, fun _ => ⟨hmode, fun _ => htime, fun _ => hdepth, fun hne => absurd rfl (hne v)⟩⟩

end Sys2Proof
end

section
/-! PROOFS. Family 10_state.md, what each instruction can change: its responses (O26), the block latches (O55), the datapath
and DMEM (O56). -/

namespace Sys2Proof

/-- The instruction is a command word, not an operation of the schedule (R80, R89). -/
def Instr.isCommand (i : Instr) : Prop := ∃ w, encode i = .cmd w

namespace Machine

/-! ### What one instruction can do

Every operation of the schedule ends the same way: it leaves the accumulator and the wires with some values and moves the
sequencer. `Footprint` says for each instruction which state it can go on to, with the computed sample values left open;
`exec_footprint` ties it to `exec`, and the frame claims and the invariant are read off it. -/

/-- DL.WR where it succeeds: the word stands at the line's write address and the line's cursor has advanced (R122). -/
def stored (l : LineId) (v : Q) (s : State) : State :=
  setCursor l (nextCursor l s) { s with mem := s.mem.write (writeAddr l s) v }

@[simp] theorem stored_idx (l : LineId) (v : Q) (s : State) : (stored l v s).idx = s.idx := by simp [stored]

theorem dlWr_eq_stored {l : LineId} {v : Q} {s t : State} (h : dlWr l v s = .ok t) :
    writeAddr l s < s.cfg.memWords ∧ t = stored l v s := dlWr_cases h

/-- Where `nextLine` moves from line `idx` of `count`: on to the next line, or after the last one to the code `after`. -/
inductive LineMove (here after : BitVec 5) (count : Nat) (idx : BitVec 6) : BitVec 5 → BitVec 6 → Prop
  | next (h : idx.toNat + 1 < count) : LineMove here after count idx here (idx + 1)
  | last (h : count ≤ idx.toNat + 1) : LineMove here after count idx after 0

theorem nextLine_eq_goto (here after : BitVec 5) (count : Nat) {idx : BitVec 6} {s : State} (hidx : s.idx = idx) :
    ∃ code k, LineMove here after count idx code k ∧ nextLine here after count s = goto code k s := by
  subst hidx
  unfold nextLine
  split
  next h => exact ⟨here, s.idx + 1, .next h, rfl⟩
  next h => exact ⟨after, 0, .last (by omega), rfl⟩

/-- The operations that change nothing but the accumulator, the wires and the sequencer, each with the code after it. -/
inductive Straight : Instr → BitVec 5 → Prop
  | cnorm : Straight .cnorm Seq.ap
  | xfadeL : Straight .xfadeL Seq.sclipL
  | sclipL : Straight .sclipL Seq.xfadeR
  | xfadeR : Straight .xfadeR Seq.sclipR
  | sclipR : Straight .sclipR Seq.emit

/-- The states that an instruction can go on to from `s`. -/
inductive Footprint (s : State) : Instr → State → Prop
  /-- a command that only responds -/
  | responds {i : Instr} (st : BitVec 4) (d : BitVec 32) (hcmd : i.isCommand) (hi : givesResponse s i) :
      Footprint s i (respond st d s)
  | initFails {a b f} (st : BitVec 4) : Footprint s (.init a b f) (raiseFailure st s)
  | initClears {a b f} (hmem : s.cfg.reqWords ≤ s.cfg.memWords) :
      Footprint s (.init a b f) (respond Status.ok 0 { clearEngine s with mode := .ready })
  | setsTime (v : BitVec 24) : Footprint s (.setpTime v) (respond Status.ok 0 { s with pTime := clampParam v })
  | setsDepth (v : BitVec 24) : Footprint s (.setpDepth v) (respond Status.ok 0 { s with pDepth := clampParam v })
  | setsMix (v : BitVec 24) : Footprint s (.setpMix v) (respond Status.ok 0 { s with pMix := clampMix v })
  | starts {ign n} (hmode : s.mode = .ready) (hn : n ≠ 0) :
      Footprint s (.render ign n) (goto Seq.blkpro 0 { s with fcnt := n })
  | idles : Footprint s .idle s
  | latches : Footprint s .blkpro (goto Seq.send 0 (latchBlock s))
  | schedules : Footprint s .gsched (goto Seq.blkpro 0 (gschedule s))
  | waits (hin : s.frameIn = []) : Footprint s .send s
  | takes {f rest} (w : Wires) (a : QA) (hin : s.frameIn = f :: rest) :
      Footprint s .send (goto Seq.biqLp 0 (setWires w (setAcc a { s with frameIn := rest })))
  | filtersLow {z1 z2} (w : Wires) (h1 : QA.within s.lpz2 63 → QA.within z1 64) (h2 : QA.within z2 63) :
      Footprint s .biqLp (goto Seq.biqHp 0 (setWires w (setAcc z2 (setTap .lpz2 z2 (setTap .lpz1 z1 s)))))
  | filtersHigh {z1 z2} (w : Wires) (h1 : QA.within s.hpz2 63 → QA.within z1 64) (h2 : QA.within z2 63) :
      Footprint s .biqHp (goto Seq.pdly 0 (setWires w (setAcc z2 (setTap .hpz2 z2 (setTap .hpz1 z1 s)))))
  | delays {w : Wires} (v : Q) (hr : w.r = []) (haddr : writeAddr .pre s < s.cfg.memWords) :
      Footprint s .pdly (goto Seq.comb 0 (setWires w (stored .pre v s)))
  | combs {w : Wires} {z : QA} {code k} (v : Q) (a : QA) (hline : hasComb s s.idx.toNat)
      (hr : w.r.length = s.wires.r.length + 1) (hz : QA.within z 63)
      (haddr : writeAddr (.comb s.idx.toNat) s < s.cfg.memWords)
      (hmove : LineMove Seq.comb Seq.cnorm s.cfg.n s.idx code k) :
      Footprint s .comb
        (goto code k (setWires w (stored (.comb s.idx.toNat) v (setAcc a (setTap (.dz s.idx.toNat) z s)))))
  | allPasses {code k} (w : Wires) (v : Q) (a : QA) (hline : hasAp s s.idx.toNat)
      (haddr : writeAddr (.ap s.idx.toNat) s < s.cfg.memWords)
      (hmove : LineMove Seq.ap Seq.xfadeL s.cfg.m s.idx code k) :
      Footprint s .ap (goto code k (setWires w (stored (.ap s.idx.toNat) v (setAcc a s))))
  | computes {i code} (w : Wires) (a : QA) (hi : Straight i code) :
      Footprint s i (goto code 0 (setWires w (setAcc a s)))
  | emitsLast (f : Frame) (hlast : s.fcnt = 1) :
      Footprint s .emit (respond Status.ok 0 (goto Seq.idle 0 (giveFrame f { s with fcnt := 0 })))
  | emits (f : Frame) (hmore : s.fcnt ≠ 1) :
      Footprint s .emit (goto Seq.send 0 (giveFrame f { s with fcnt := s.fcnt - 1 }))

/-- An outcome's state lies in the footprint if the state the meaning wrote down does. -/
theorem footprint_of_next {i : Instr} {s t u : State} (h : (.next u : Result) = .next t) (hu : Footprint s i u) :
    Footprint s i t := by
  cases h
  exact hu

/-- A command that waits for READY stays in its footprint if its act does: the refusal only responds. -/
theorem whenReady_footprint {i : Instr} {act : State → State} {s : State} (hcmd : i.isCommand)
    (hi : s.mode = .uninit → givesResponse s i) (hact : s.mode = .ready → Footprint s i (act s)) :
    Footprint s i (whenReady s act) := by
  unfold whenReady
  split
  next hmode => exact .responds _ _ hcmd (hi hmode)
  next hmode => exact hact hmode

theorem initFailure_none {c : Cfg} {fs : BitVec 24} {inch outch : BitVec 2} (h : initFailure c fs inch outch = none) :
    c.reqWords ≤ c.memWords := by
  unfold initFailure at h
  split at h
  · cases h
  · split at h
    · cases h
    · split at h
      · cases h
      next hmem => exact Nat.le_of_not_lt hmem

theorem execInit_footprint {inch outch : BitVec 2} {fs : BitVec 24} {s t : State}
    (h : execInit inch outch fs s = .next t) : Footprint s (.init inch outch fs) t := by
  unfold execInit at h
  split at h
  next st _ => exact footprint_of_next h (.initFails st)
  next hnone => exact footprint_of_next h (.initClears (initFailure_none hnone))

theorem execRender_footprint {ign : BitVec 4} {n : BitVec 24} {s t : State} (h : execRender ign n s = .next t) :
    Footprint s (.render ign n) t := by
  refine footprint_of_next h (whenReady_footprint ⟨_, rfl⟩ .inl fun hmode => ?_)
  split
  next hn => exact .responds _ _ ⟨_, rfl⟩ (.inr hn)
  next hn => exact .starts hmode hn

theorem execSend_footprint {s t : State} (h : execSend s = .next t) : Footprint s .send t := by
  unfold execSend at h
  split at h
  next hin => exact footprint_of_next h (.waits hin)
  next f rest hin => exact footprint_of_next h (.takes _ _ hin)

theorem execBiqLp_footprint {s t : State} (h : execBiqLp s = .next t) : Footprint s .biqLp t := by
  simp only [execBiqLp, biq_eq, setTap_setAcc] at h
  exact footprint_of_next h (.filtersLow _ (within_tap_and_two_products · ..) (within_two_products ..))

theorem execBiqHp_footprint {s t : State} (h : execBiqHp s = .next t) : Footprint s .biqHp t := by
  simp only [execBiqHp, biq_eq, setTap_setAcc] at h
  exact footprint_of_next h (.filtersHigh _ (within_tap_and_two_products · ..) (within_two_products ..))

theorem execPdly_footprint {s t : State} (h : execPdly s = .next t) : Footprint s .pdly t := by
  unfold execPdly at h
  split at h
  · cases h
  next s1 hwr =>
    split at h
    · cases h
    · obtain ⟨haddr, rfl⟩ := dlWr_eq_stored hwr
      exact footprint_of_next h (.delays _ rfl haddr)

theorem iir1_state (co : Coef1) (t : Tap) (x : Q) (s : State) :
    ∃ z, QA.within z 63 ∧ (iir1 co t x s).2 = setAcc z (setTap t z s) := by
  rw [iir1_eq]
  exact ⟨_, within_two_products .., setTap_setAcc ..⟩

theorem combMix_state (p d g : Q) (s : State) : ∃ a, (combMix p d g s).2 = setAcc a s := by
  rw [combMix_eq]
  exact ⟨_, rfl⟩

theorem execComb_footprint {s t : State} (h : execComb s = .next t) : Footprint s .comb t := by
  simp only [execComb] at h
  split at h
  next hline =>
    split at h
    · cases h
    next r _ =>
      obtain ⟨z, hz, hfilter⟩ := iir1_state (combCfg s.cfg s.idx.toNat).damp (.dz s.idx.toNat) r s
      split at h
      · cases h
      next s3 hwr =>
        obtain ⟨a, hmix⟩ := combMix_state s.wires.p
          (iir1 (combCfg s.cfg s.idx.toNat).damp (.dz s.idx.toNat) r s).1 (s.fbg.getD s.idx.toNat 0)
          (iir1 (combCfg s.cfg s.idx.toNat).damp (.dz s.idx.toNat) r s).2
        rw [hmix, hfilter, setAcc_setAcc] at hwr
        obtain ⟨haddr, rfl⟩ := dlWr_eq_stored hwr
        obtain ⟨code, k, hmove, hnext⟩ := nextLine_eq_goto Seq.comb Seq.cnorm s.cfg.n (idx := s.idx)
          (s := setWires { s.wires with r := s.wires.r ++ [r] }
            (stored (.comb s.idx.toNat) _ (setAcc a (setTap (.dz s.idx.toNat) z s)))) (by simp)
        rw [hnext] at h
        exact footprint_of_next h (.combs _ a hline List.length_append hz haddr hmove)
  · cases h

theorem execAp_footprint {s t : State} (h : execAp s = .next t) : Footprint s .ap t := by
  simp only [execAp] at h
  split at h
  next hline =>
    split at h
    · cases h
    next del _ =>
      split at h
      · cases h
      next s3 hwr =>
        rw [apOut_eq, apBack_eq, setAcc_setAcc] at hwr
        obtain ⟨haddr, rfl⟩ := dlWr_eq_stored hwr
        obtain ⟨code, k, hmove, hnext⟩ := nextLine_eq_goto Seq.ap Seq.xfadeL s.cfg.m (idx := s.idx)
          (s := setWires { s.wires with v := _ } (stored (.ap s.idx.toNat) _ (setAcc _ s))) (by simp)
        rw [hnext] at h
        exact footprint_of_next h (.allPasses _ _ _ hline haddr hmove)
  · cases h

/-- EMIT of the last frame closes the loop of RENDER and responds (R175, R177; log 17). -/
theorem execEmit_last {s : State} (hlast : s.fcnt = 1) : execEmit s =
    .next (respond Status.ok 0 (goto Seq.idle 0 (giveFrame ⟨s.wires.yL, s.wires.yR⟩ { s with fcnt := 0 }))) := by
  have hzero : s.fcnt - 1 = 0#24 := by rw [hlast]; rfl
  exact (if_pos hzero).trans (by rw [hzero]; rfl)

/-- EMIT with frames left goes on at SEND (R175, R177). -/
theorem execEmit_more {s : State} (hmore : s.fcnt ≠ 1) : execEmit s =
    .next (goto Seq.send 0 (giveFrame ⟨s.wires.yL, s.wires.yR⟩ { s with fcnt := s.fcnt - 1 })) :=
  if_neg (mt sub_eq_zero.mp hmore)

theorem execEmit_footprint {s t : State} (h : execEmit s = .next t) : Footprint s .emit t := by
  by_cases hlast : s.fcnt = 1
  · rw [execEmit_last hlast] at h
    exact footprint_of_next h (.emitsLast _ hlast)
  · rw [execEmit_more hlast] at h
    exact footprint_of_next h (.emits _ hlast)

/-- The last operations of a frame compute through the accumulator alone (R143, R161, R163). -/
theorem straight_footprint {i : Instr} {s t : State} {code : BitVec 5} (hi : Straight i code)
    (h : exec i s = .next t) : Footprint s i t := by
  cases hi with
  | cnorm =>
    simp only [exec, execCnorm, sumLines_eq] at h
    exact footprint_of_next h (.computes _ _ .cnorm)
  | xfadeL =>
    simp only [exec, execXfadeL, xfade_eq] at h
    exact footprint_of_next h (.computes _ _ .xfadeL)
  | xfadeR =>
    simp only [exec, execXfadeR, xfade_eq] at h
    exact footprint_of_next h (.computes _ _ .xfadeR)
  | sclipL =>
    obtain ⟨a, ha⟩ := sclip_state s.wires.mL s
    simp only [exec, execSclipL, ha] at h
    exact footprint_of_next h (.computes _ a .sclipL)
  | sclipR =>
    obtain ⟨a, ha⟩ := sclip_state s.wires.mR s
    simp only [exec, execSclipR, ha] at h
    exact footprint_of_next h (.computes _ a .sclipR)

/-- Everything an instruction can do. -/
theorem exec_footprint {i : Instr} {s t : State} (h : exec i s = .next t) : Footprint s i t := by
  cases i with
  | init a b f => exact execInit_footprint h
  | setpTime v => exact footprint_of_next h (whenReady_footprint ⟨_, rfl⟩ (fun _ => trivial) fun _ => .setsTime v)
  | setpDepth v => exact footprint_of_next h (whenReady_footprint ⟨_, rfl⟩ (fun _ => trivial) fun _ => .setsDepth v)
  | setpMix v => exact footprint_of_next h (whenReady_footprint ⟨_, rfl⟩ (fun _ => trivial) fun _ => .setsMix v)
  | setpUnknown | getpTime | getpDepth | getpMix | getpUnknown =>
    exact footprint_of_next h
      (whenReady_footprint ⟨_, rfl⟩ (fun _ => trivial) fun _ => .responds _ _ ⟨_, rfl⟩ trivial)
  | render ign n => exact execRender_footprint h
  | reservedOp0 | reservedOp5 | reservedOp6_7 | reservedOp8_15 =>
    exact footprint_of_next h (.responds _ _ ⟨_, rfl⟩ trivial)
  | idle => exact footprint_of_next h .idles
  | blkpro => exact footprint_of_next h .latches
  | gsched => exact footprint_of_next h .schedules
  | send => exact execSend_footprint h
  | biqLp => exact execBiqLp_footprint h
  | biqHp => exact execBiqHp_footprint h
  | pdly => exact execPdly_footprint h
  | comb => exact execComb_footprint h
  | ap => exact execAp_footprint h
  | cnorm => exact straight_footprint .cnorm h
  | xfadeL => exact straight_footprint .xfadeL h
  | sclipL => exact straight_footprint .sclipL h
  | xfadeR => exact straight_footprint .xfadeR h
  | sclipR => exact straight_footprint .sclipR h
  | emit => exact execEmit_footprint h


/-! ### Frames read off the footprint -/

section
variable {i : Instr} {s t : State} (h : exec i s = .next t)
include h

/-- A response is given exactly by the instructions that `givesResponse` names, and then it is one. -/
theorem exec_responses : (givesResponse s i → t.rspValid = true ∧ t.rspOut = s.rspOut ++ [⟨t.rspStatus, t.rspData⟩]) ∧
    (¬ givesResponse s i → t.rspValid = s.rspValid ∧ t.rspOut = s.rspOut ∧ t.rspStatus = s.rspStatus ∧
      t.rspData = s.rspData) := by
  cases exec_footprint h with
  | responds st d _ hi => exact ⟨fun _ => ⟨rfl, rfl⟩, fun hn => absurd hi hn⟩
  | initFails | initClears | setsTime | setsDepth | setsMix =>
    exact ⟨fun _ => ⟨rfl, rfl⟩, fun hn => absurd trivial hn⟩
  | starts hmode hn =>
    refine ⟨fun hi => ?_, fun _ => ⟨rfl, rfl, rfl, rfl⟩⟩
    rcases hi with hu | hz
    · simp [hmode] at hu
    · exact absurd hz hn
  | emitsLast f hlast => exact ⟨fun _ => ⟨rfl, rfl⟩, fun hn => absurd hlast hn⟩
  | emits f hmore => exact ⟨fun hi => absurd hi hmore, fun _ => ⟨rfl, rfl, rfl, rfl⟩⟩
  | computes w a hi => cases hi <;> exact ⟨False.elim, fun _ => ⟨rfl, rfl, rfl, rfl⟩⟩
  | _ => exact ⟨False.elim, fun _ => ⟨rfl, rfl, rfl, rfl⟩⟩

variable (hinit : ∀ a b f, i ≠ .init a b f)
include hinit

theorem exec_latches (hblk : i ≠ .blkpro) : t.sendg = s.sendg ∧ t.wetw = s.wetw ∧ t.dryw = s.dryw := by
  cases exec_footprint h with
  | initFails | initClears => exact absurd rfl (hinit _ _ _)
  | latches => exact absurd rfl hblk
  | _ => exact ⟨rfl, rfl, rfl⟩

theorem exec_gains (hblk : i ≠ .blkpro) (hgs : i ≠ .gsched) : t.fbg = s.fbg := by
  cases exec_footprint h with
  | initFails | initClears => exact absurd rfl (hinit _ _ _)
  | latches => exact absurd rfl hblk
  | schedules => exact absurd rfl hgs
  | _ => rfl

theorem exec_lpTaps (hlp : i ≠ .biqLp) : t.lpz1 = s.lpz1 ∧ t.lpz2 = s.lpz2 := by
  cases exec_footprint h with
  | initFails | initClears => exact absurd rfl (hinit _ _ _)
  | filtersLow => exact absurd rfl hlp
  | _ => exact ⟨rfl, rfl⟩

theorem exec_hpTaps (hhp : i ≠ .biqHp) : t.hpz1 = s.hpz1 ∧ t.hpz2 = s.hpz2 := by
  cases exec_footprint h with
  | initFails | initClears => exact absurd rfl (hinit _ _ _)
  | filtersHigh => exact absurd rfl hhp
  | _ => exact ⟨rfl, rfl⟩

theorem exec_combRegisters (hcomb : i ≠ .comb) : t.dz = s.dz ∧ t.ccur = s.ccur := by
  cases exec_footprint h with
  | initFails | initClears => exact absurd rfl (hinit _ _ _)
  | combs => exact absurd rfl hcomb
  | _ => exact ⟨rfl, rfl⟩

theorem exec_preCursor (hpdly : i ≠ .pdly) : t.pcur = s.pcur := by
  cases exec_footprint h with
  | initFails | initClears => exact absurd rfl (hinit _ _ _)
  | delays => exact absurd rfl hpdly
  | _ => rfl

theorem exec_apCursors (hap : i ≠ .ap) : t.acur = s.acur := by
  cases exec_footprint h with
  | initFails | initClears => exact absurd rfl (hinit _ _ _)
  | allPasses => exact absurd rfl hap
  | _ => rfl

theorem exec_memory (hpdly : i ≠ .pdly) (hcomb : i ≠ .comb) (hap : i ≠ .ap) : t.mem = s.mem := by
  cases exec_footprint h with
  | initFails | initClears => exact absurd rfl (hinit _ _ _)
  | delays => exact absurd rfl hpdly
  | combs => exact absurd rfl hcomb
  | allPasses => exact absurd rfl hap
  | _ => rfl

end

theorem getD_set_ne {α : Type} (l : List α) {i k : Nat} (hne : k ≠ i) (v d : α) : (l.set i v).getD k d = l.getD k d := by
  simp [List.getD_eq_getElem?_getD, List.getElem?_set_ne (Ne.symm hne)]

/-- A store changes one word at most, the one at the write address of its line (R122). -/
theorem read_stored {l : LineId} {v : Q} {s : State} (hwf : s.mem.wf = true) {a : Nat} (ha : a ≠ writeAddr l s) :
    (stored l v s).mem.read a = s.mem.read a := by
  simp only [stored, setCursor_mem]
  rw [Memory.read_write hwf, if_neg ha]

/-- PDLY stores into the pre-delay line alone (R123). -/
theorem exec_pdly_store {s t : State} (h : exec .pdly s = .next t) (hwf : s.mem.wf = true) {a : Nat}
    (ha : a ≠ writeAddr .pre s) : t.mem.read a = s.mem.read a := by
  cases exec_footprint h with
  | delays v => exact read_stored hwf ha
  | responds _ _ hcmd => exact nomatch hcmd
  | computes _ _ hi => cases hi

/-- COMB writes the tap, the cursor and the word of its own line alone. -/
theorem exec_comb_frame {s t : State} (h : exec .comb s = .next t) :
    (∀ k, k ≠ s.idx.toNat → t.dz.getD k 0 = s.dz.getD k 0 ∧ lineCursor t (.comb k) = lineCursor s (.comb k)) ∧
    (s.mem.wf = true → ∀ a, a ≠ writeAddr (.comb s.idx.toNat) s → t.mem.read a = s.mem.read a) := by
  cases exec_footprint h with
  | combs v a => exact ⟨fun k hk => ⟨getD_set_ne _ hk .., getD_set_ne _ hk ..⟩, fun hwf a ha => read_stored hwf ha⟩
  | responds _ _ hcmd => exact nomatch hcmd
  | computes _ _ hi => cases hi

/-- AP writes the cursor and the word of its own line alone. -/
theorem exec_ap_frame {s t : State} (h : exec .ap s = .next t) :
    (∀ k, k ≠ s.idx.toNat → lineCursor t (.ap k) = lineCursor s (.ap k)) ∧
    (s.mem.wf = true → ∀ a, a ≠ writeAddr (.ap s.idx.toNat) s → t.mem.read a = s.mem.read a) := by
  cases exec_footprint h with
  | allPasses v a => exact ⟨fun k hk => getD_set_ne _ hk .., fun hwf a ha => read_stored hwf ha⟩
  | responds _ _ hcmd => exact nomatch hcmd
  | computes _ _ hi => cases hi

/-- With a legal cursor the write address lies in the line's region, so no address outside it is the write address. -/
theorem ne_writeAddr {l : LineId} {s : State} (hcur : s.cursorOk l) {a : Nat}
    (ha : a < lineBase s.cfg l ∨ lineBase s.cfg l + lineCap s.cfg l ≤ a) : a ≠ writeAddr l s := by
  have := writeAddr_lt l s hcur
  omega

end Machine

/-! ### The obligations -/

open Machine

/-- Settles O26: read off the footprint of each instruction. -/
theorem exactlyOneResponsePerCommand : Obligations.ExactlyOneResponsePerCommand :=
  fun _ _ _ h => exec_responses h

/-- Settles O55: read off the footprint of each instruction. -/
theorem latchesChangeOnlyAtABlockStart : Obligations.LatchesChangeOnlyAtABlockStart := by
  intro i s t h hinit hblk
  obtain ⟨hsend, hwet, hdry⟩ := exec_latches h hinit hblk
  exact ⟨hsend, hwet, hdry, exec_gains h hinit hblk⟩

/-- Settles O56: each register's frame is one lemma about the footprints, and a store lands at the write address of its own
line. -/
theorem datapathIsOwnedByItsStage : Obligations.DatapathIsOwnedByItsStage := by
  intro i s t h hinit
  refine ⟨exec_lpTaps h hinit, exec_hpTaps h hinit, exec_combRegisters h hinit, exec_preCursor h hinit,
    exec_apCursors h hinit, fun hp hc ha a => by rw [exec_memory h hinit hp hc ha], ?comb, ?ap, fun hwf => ?stores⟩
  case comb => rintro rfl; exact (exec_comb_frame h).1
  case ap => rintro rfl; exact (exec_ap_frame h).1
  case stores =>
    refine ⟨?_, ?_, ?_, fun hcur => ?_, fun hcur => ?_, fun hcur => ?_⟩
    · rintro rfl a ha; exact exec_pdly_store h hwf ha
    · rintro rfl; exact (exec_comb_frame h).2 hwf
    · rintro rfl; exact (exec_ap_frame h).2 hwf
    · rintro rfl a ha
      exact exec_pdly_store h hwf (ne_writeAddr hcur (.inr (by simpa [lineBase] using ha)))
    · rintro rfl a ha; exact (exec_comb_frame h).2 hwf a (ne_writeAddr hcur ha)
    · rintro rfl a ha; exact (exec_ap_frame h).2 hwf a (ne_writeAddr hcur ha)

end Sys2Proof
end

section
/-! PROOFS. Family 10_state.md, what a step starts from: the accumulator carries nothing over (O53), IDLE does nothing (O27),
a step runs the decoded instruction (O42), and the state after reset (O45). -/

namespace Sys2Proof
namespace Machine

/-! ### The accumulator on entry (R35) -/

/-- The outcome `o'` is the outcome `o` but for the value of the accumulator. -/
def SameButAcc (o o' : Result) : Prop :=
  match o with
  | .next t => ∃ b, o' = .next (setAcc b t)
  | .fault f => o' = .fault f
  | .refused r => o' = .refused r

theorem SameButAcc.next (b : QA) (t : State) : SameButAcc (.next t) (.next (setAcc b t)) := ⟨b, rfl⟩

theorem SameButAcc.of_eq {o o' : Result} (h : o' = o) : SameButAcc o o' := by
  subst h
  cases o' with
  | next t => exact ⟨t.acc, rfl⟩
  | fault f => rfl
  | refused r => rfl

theorem whenReady_sameButAcc {act : State → State} {s : State} {a : QA} (hact : act (setAcc a s) = setAcc a (act s)) :
    SameButAcc (.next (whenReady s act)) (.next (whenReady (setAcc a s) act)) := by
  simp only [whenReady, setAcc_mode]
  split
  · exact .next a _
  · rw [hact]
    exact .next a _

/-! An operation that computes starts with ACC.CLR or ACC.LD, so it forgets what the accumulator held. -/

theorem accClr_setAcc (a : QA) (s : State) : accClr (setAcc a s) = accClr s := rfl

theorem accLd_setAcc (a : QA) (z : Tap) (s : State) : accLd z (setAcc a s) = accLd z s := by
  simp [accLd, setAcc_setAcc]

theorem biq_setAcc (a : QA) (co : Coef2) (z1 z2 : Tap) (x : Q) (s : State) :
    biq co z1 z2 x (setAcc a s) = biq co z1 z2 x s := by
  simp only [biq, accLd_setAcc]

theorem iir1_setAcc (a : QA) (co : Coef1) (z : Tap) (x : Q) (s : State) :
    iir1 co z x (setAcc a s) = iir1 co z x s := by
  simp only [iir1, accLd_setAcc]

theorem xfade_setAcc (a : QA) (x w : Q) (s : State) : xfade x w (setAcc a s) = xfade x w s := rfl

theorem apOut_setAcc (a : QA) (del g v : Q) (s : State) : apOut del g v (setAcc a s) = apOut del g v s := rfl

theorem sclip_setAcc (a : QA) (m : Q) (s : State) : sclip m (setAcc a s) = sclip m s := by
  simp only [sclip, roundedProduct, accClr_setAcc, setAcc_cfg]

theorem dlRd_setAcc (a : QA) (l : LineId) (k : Nat) (s : State) : dlRd l k (setAcc a s) = dlRd l k s := by
  cases l <;> rfl

/-- A store does not look at the accumulator and keeps it. -/
theorem dlWr_setAcc (a : QA) (l : LineId) (v : Q) (s : State) :
    dlWr l v (setAcc a s) = (dlWr l v s).map (setAcc a) := by
  have haddr : writeAddr l (setAcc a s) = writeAddr l s := by cases l <;> rfl
  by_cases hw : writeAddr l s < s.cfg.memWords
  · rw [dlWr_ok hw, dlWr_ok (haddr ▸ hw)]
    cases l <;> rfl
  · simp [dlWr, memWrite, haddr, hw, Except.map]

/-! The meanings that begin by computing do not depend on the accumulator at all. -/

theorem execBiqLp_setAcc (a : QA) (s : State) : execBiqLp (setAcc a s) = execBiqLp s := by
  simp only [execBiqLp, setAcc_wires, setAcc_cfg, biq_setAcc]

theorem execBiqHp_setAcc (a : QA) (s : State) : execBiqHp (setAcc a s) = execBiqHp s := by
  simp only [execBiqHp, setAcc_wires, setAcc_cfg, biq_setAcc]

theorem execComb_setAcc (a : QA) (s : State) : execComb (setAcc a s) = execComb s := by
  simp only [execComb, hasComb, setAcc_idx, setAcc_cfg, setAcc_wires, setAcc_ccur, setAcc_dz, setAcc_fbg, dlRd_setAcc,
    iir1_setAcc]

theorem execCnorm_setAcc (a : QA) (s : State) : execCnorm (setAcc a s) = execCnorm s := by
  simp only [execCnorm, setAcc_wires, setAcc_cfg, accClr_setAcc]

theorem execAp_setAcc (a : QA) (s : State) : execAp (setAcc a s) = execAp s := by
  simp only [execAp, hasAp, setAcc_idx, setAcc_cfg, setAcc_wires, setAcc_acur, dlRd_setAcc, apOut_setAcc]

theorem execXfadeL_setAcc (a : QA) (s : State) : execXfadeL (setAcc a s) = execXfadeL s := by
  simp only [execXfadeL, setAcc_wires, xfade_setAcc]

theorem execSclipL_setAcc (a : QA) (s : State) : execSclipL (setAcc a s) = execSclipL s := by
  simp only [execSclipL, setAcc_wires, sclip_setAcc]

theorem execXfadeR_setAcc (a : QA) (s : State) : execXfadeR (setAcc a s) = execXfadeR s := by
  simp only [execXfadeR, setAcc_wires, xfade_setAcc]

theorem execSclipR_setAcc (a : QA) (s : State) : execSclipR (setAcc a s) = execSclipR s := by
  simp only [execSclipR, setAcc_wires, sclip_setAcc]

/-! The others carry the accumulator along. -/

theorem execSend_sameButAcc (a : QA) (s : State) : SameButAcc (execSend s) (execSend (setAcc a s)) := by
  simp only [execSend, setAcc_frameIn]
  split
  · exact .next a _
  · exact .of_eq rfl

theorem execPdly_sameButAcc (a : QA) (s : State) : SameButAcc (execPdly s) (execPdly (setAcc a s)) := by
  simp only [execPdly, setAcc_wires, setAcc_cfg, dlWr_setAcc]
  cases dlWr .pre s.wires.t2 s with
  | error f => exact .of_eq rfl
  | ok s1 =>
    simp only [Except.map, dlRd_setAcc]
    split
    · exact .of_eq rfl
    · exact .next a _

theorem execEmit_sameButAcc (a : QA) (s : State) : SameButAcc (execEmit s) (execEmit (setAcc a s)) := by
  by_cases hlast : s.fcnt = 1
  · rw [execEmit_last hlast, execEmit_last (s := setAcc a s) hlast]
    exact .next a _
  · rw [execEmit_more hlast, execEmit_more (s := setAcc a s) hlast]
    exact .next a _

/-- No instruction looks at the value the accumulator held before it. -/
theorem exec_sameButAcc (a : QA) (i : Instr) (s : State) : SameButAcc (exec i s) (exec i (setAcc a s)) := by
  cases i with
  | init => exact .of_eq rfl
  | setpTime | setpDepth | setpMix | setpUnknown | getpTime | getpDepth | getpMix | getpUnknown =>
    exact whenReady_sameButAcc rfl
  | render =>
    refine whenReady_sameButAcc ?_
    split <;> rfl
  | reservedOp0 | reservedOp5 | reservedOp6_7 | reservedOp8_15 | idle | blkpro | gsched => exact .next a _
  | send => exact execSend_sameButAcc a s
  | biqLp => exact .of_eq (execBiqLp_setAcc a s)
  | biqHp => exact .of_eq (execBiqHp_setAcc a s)
  | pdly => exact execPdly_sameButAcc a s
  | comb => exact .of_eq (execComb_setAcc a s)
  | cnorm => exact .of_eq (execCnorm_setAcc a s)
  | ap => exact .of_eq (execAp_setAcc a s)
  | xfadeL => exact .of_eq (execXfadeL_setAcc a s)
  | sclipL => exact .of_eq (execSclipL_setAcc a s)
  | xfadeR => exact .of_eq (execXfadeR_setAcc a s)
  | sclipR => exact .of_eq (execSclipR_setAcc a s)
  | emit => exact execEmit_sameButAcc a s

/-! ### What a step runs -/

theorem step_of_decode {s : State} {i : Instr} (hwf : s.cfg.WF) (hrst : s.rst = false)
    (hdec : decode (fetchCode s) = .ok i) : step s = exec i (accept s) := by
  simp only [step, if_pos hwf, hrst, Bool.false_eq_true, if_false, hdec]

theorem fetchCode_of_offer {s : State} {w : CmdWord} {rest : List CmdWord} (hseq : s.seq = Seq.idle)
    (hcmd : s.cmdIn = w :: rest) : fetchCode s = .cmd w := by
  simp [fetchCode, State.cmdReady, hseq, hcmd]

theorem fetchCode_of_no_offer {s : State} (hseq : s.seq = Seq.idle) (hcmd : s.cmdIn = []) :
    fetchCode s = .seq Seq.idle := by
  simp [fetchCode, State.cmdReady, hseq, hcmd]

/-- Between commands a step takes the word at the front of the command port, if there is one. -/
theorem accept_of_idle {s : State} (hseq : s.seq = Seq.idle) :
    accept s = { lowerStrobes s with cmdIn := s.cmdIn.tail } := by
  simp [accept, State.cmdReady, hseq]

theorem accept_of_busy {s : State} (hseq : s.seq ≠ Seq.idle) : accept s = lowerStrobes s := by
  simp [accept, State.cmdReady, hseq]

end Machine

/-! ### The obligations -/

open Machine

/-- Settles O53: every operation that computes clears or loads the accumulator first, the others only carry it along. -/
theorem accumulatorCarriesNothingOver : Obligations.AccumulatorCarriesNothingOver := by
  intro i s a
  have hsame := exec_sameButAcc a i s
  refine ⟨fun t h => ?_, fun f h => ?_⟩
  · rw [h] at hsame
    exact hsame
  · rw [h] at hsame
    exact hsame

/-- Settles O27: the meaning of IDLE is to go on with the state as it is. -/
theorem idleDoesNothing : Obligations.IdleDoesNothing := fun _ => rfl

/-- Settles O42: what `fetchCode` and `accept` are in each of the three cases. -/
theorem stepRunsTheDecodedInstruction : Obligations.StepRunsTheDecodedInstruction := by
  refine fun s hwf hrst => ⟨fun w rest hseq hcmd => ?offer, fun hseq hcmd => ?noOffer, fun i hseq hdec => ?busy⟩
  case offer =>
    have hdec : decode (fetchCode s) = .ok (decodeCmd w) := by rw [fetchCode_of_offer hseq hcmd]; rfl
    rw [step_of_decode hwf hrst hdec, accept_of_idle hseq, hcmd]
    rfl
  case noOffer =>
    have hdec : decode (fetchCode s) = .ok .idle := by rw [fetchCode_of_no_offer hseq hcmd]; rfl
    rw [step_of_decode hwf hrst hdec, accept_of_idle hseq, hcmd, List.tail_nil, ← hcmd]
    rfl
  case busy =>
    rw [step_of_decode hwf hrst (by rw [fetchCode_of_busy hseq, hdec]), accept_of_busy hseq]
    rfl

/-- Settles O45: each register's reset value, read off `State.resetOf`. -/
theorem resetStateIsTheRstColumn : Obligations.ResetStateIsTheRstColumn :=
  ⟨rfl, rfl, rfl, rfl, rfl, rfl, rfl, rfl⟩

end Sys2Proof
end

section
/-! PROOFS. Family 10_state.md, the invariant: every step keeps it (O47), and it holds at reset (O46). -/

namespace Sys2Proof
namespace Machine

/-! ### The invariant in two parts

`State.Inv` says what the registers and the memory hold (`Sound`) and where the sequencer stands (`Sequenced`). Each part has
one rule per operation on the state, and `inv_iff` puts them together. -/

/-- The configuration, the register arrays, the memory and the READY engine are as the invariant asks. -/
structure State.Sound (s : State) : Prop where
  config : s.cfg.WF
  lengths : s.dz.length = s.cfg.n ∧ s.ccur.length = s.cfg.n ∧ s.fbg.length = s.cfg.n ∧ s.acur.length = s.cfg.m
  memory : s.mem.wf = true ∧ ∀ c ∈ s.mem, c.1 < s.cfg.memWords
  engine : s.mode = .ready → s.EngineInv

/-- The sequencer stands where the invariant allows it (R25 to R27, R142). -/
structure State.Sequenced (s : State) : Prop where
  idle : s.seq = Seq.idle → s.fcnt = 0
  busy : s.seq ≠ Seq.idle → s.mode = .ready ∧ s.fcnt ≠ 0 ∧ s.seq.toNat ≤ 14
  combIdx : s.seq = Seq.comb → s.idx.toNat < s.cfg.n ∧ s.wires.r.length = s.idx.toNat
  cnormResults : s.seq = Seq.cnorm → s.wires.r.length = s.cfg.n
  apIdx : s.seq = Seq.ap → s.idx.toNat < s.cfg.m
  otherIdx : s.seq ≠ Seq.comb → s.seq ≠ Seq.ap → s.idx = 0

theorem inv_iff {s : State} : s.Inv ↔ s.Sound ∧ s.Sequenced :=
  ⟨fun h => ⟨⟨h.config, h.lengths, h.memory, h.engine⟩,
      ⟨h.idle, h.busy, h.combIdx, h.cnormResults, h.apIdx, h.otherIdx⟩⟩,
    fun ⟨hd, hq⟩ => ⟨hd.config, hd.lengths, hd.memory, hq.idle, hq.busy, hq.combIdx, hq.cnormResults, hq.apIdx,
      hq.otherIdx, hd.engine⟩⟩

/-! ### What each part looks at -/

/-- What `Sound` looks at, as one value. -/
structure Body where
  cfg : Cfg
  mode : Mode
  lpz1 : QA
  lpz2 : QA
  hpz1 : QA
  hpz2 : QA
  dz : List QA
  pcur : Nat
  ccur : List Nat
  acur : List Nat
  pMix : BitVec 11
  fbg : List Q
  sendg : Q
  wetw : Q
  dryw : Q
  mem : Memory

def State.body (s : State) : Body :=
  ⟨s.cfg, s.mode, s.lpz1, s.lpz2, s.hpz1, s.hpz2, s.dz, s.pcur, s.ccur, s.acur, s.pMix, s.fbg, s.sendg, s.wetw, s.dryw,
    s.mem⟩

theorem State.Sound.congr {s t : State} (h : s.Sound) (hbody : t.body = s.body) : t.Sound := by
  simp only [State.body, Body.mk.injEq] at hbody
  obtain ⟨hcfg, hmode, hl1, hl2, hh1, hh2, hdz, hpcur, hccur, hacur, hmix, hfbg, hsend, hwet, hdry, hmem⟩ := hbody
  refine ⟨hcfg ▸ h.config, ?_, ?_, fun hready => ?_⟩
  · rw [hdz, hccur, hfbg, hacur, hcfg]
    exact h.lengths
  · rw [hmem, hcfg]
    exact h.memory
  · exact engineInv_congr (h.engine (hmode ▸ hready)) hcfg hpcur hccur hacur hmix hfbg hsend hwet hdry hl1 hl2 hh1 hh2 hdz

/-- What `Sequenced` looks at, as one value. -/
structure Position where
  seq : BitVec 5
  idx : BitVec 6
  fcnt : BitVec 24
  mode : Mode
  cfg : Cfg
  r : List Q

def State.position (s : State) : Position := ⟨s.seq, s.idx, s.fcnt, s.mode, s.cfg, s.wires.r⟩

theorem State.Sequenced.congr {s t : State} (h : s.Sequenced) (hpos : t.position = s.position) : t.Sequenced := by
  simp only [State.position, Position.mk.injEq] at hpos
  obtain ⟨hseq, hidx, hfcnt, hmode, hcfg, hr⟩ := hpos
  constructor
  · rw [hseq, hfcnt]; exact h.idle
  · rw [hseq, hfcnt, hmode]; exact h.busy
  · rw [hseq, hidx, hcfg, hr]; exact h.combIdx
  · rw [hseq, hcfg, hr]; exact h.cnormResults
  · rw [hseq, hidx, hcfg]; exact h.apIdx
  · rw [hseq, hidx]; exact h.otherIdx

/-! ### Sound: one rule per state operation -/

/-- A property of all entries below `n` holds after a write if it holds of the new value. -/
theorem forall_getD_set {α : Type} {P : Nat → α → Prop} {l : List α} {i n : Nat} {v d : α} (hv : P i v)
    (hold : ∀ k, k < n → P k (l.getD k d)) (k : Nat) (hk : k < n) : P k ((l.set i v).getD k d) := by
  by_cases hki : k = i
  · subst hki
    by_cases hlen : k < l.length
    · simpa [List.getD_eq_getElem?_getD, hlen] using hv
    · rw [List.set_eq_of_length_le (by omega)]
      exact hold k hk
  · rw [getD_set_ne l hki]
    exact hold k hk

/-- The exponent of R107's bound of a tap register. -/
def Tap.bound : Tap → Nat
  | .lpz1 | .hpz1 => 64
  | .lpz2 | .hpz2 | .dz _ => 63

theorem State.EngineInv.setTap {s : State} (h : s.EngineInv) {t : Tap} {z : QA} (hz : QA.within z t.bound) :
    (setTap t z s).EngineInv := by
  cases t with
  | lpz1 => exact { h with lpTaps := ⟨hz, h.lpTaps.2⟩ }
  | lpz2 => exact { h with lpTaps := ⟨h.lpTaps.1, hz⟩ }
  | hpz1 => exact { h with hpTaps := ⟨hz, h.hpTaps.2⟩ }
  | hpz2 => exact { h with hpTaps := ⟨h.hpTaps.1, hz⟩ }
  | dz i => exact { h with dzTaps := forall_getD_set (P := fun _ z => QA.within z 63) hz h.dzTaps }

theorem State.Sound.setTap {s : State} (h : s.Sound) {t : Tap} {z : QA} (hz : s.mode = .ready → QA.within z t.bound) :
    (setTap t z s).Sound := by
  refine ⟨by simpa using h.config, ?_, by simpa using h.memory, fun hready => ?_⟩
  · cases t <;> simpa [Machine.setTap] using h.lengths
  · rw [setTap_mode] at hready
    exact (h.engine hready).setTap (hz hready)

theorem State.EngineInv.setCursor {s : State} (h : s.EngineInv) {l : LineId} {v : Nat} (hv : v < lineCap s.cfg l) :
    (setCursor l v s).EngineInv := by
  cases l with
  | pre => exact { h with preCursor := hv }
  | comb i =>
    exact { h with combCursors := forall_getD_set (P := fun k cur => cur < lineCap s.cfg (.comb k)) hv h.combCursors }
  | ap j =>
    exact { h with apCursors := forall_getD_set (P := fun k cur => cur < lineCap s.cfg (.ap k)) hv h.apCursors }

/-- A line of a well-formed configuration has room for a word (R8(b), (c), (d)). -/
theorem lineCap_pos {c : Cfg} (hwf : c.WF) :
    0 < lineCap c .pre ∧ (∀ i, i < c.n → 0 < lineCap c (.comb i)) ∧ ∀ j, j < c.m → 0 < lineCap c (.ap j) := by
  have ⟨_, ⟨hpos, hle⟩, _⟩ := hwf
  refine ⟨Nat.lt_of_lt_of_le hpos hle, fun i hi => ?_, fun j hj => ?_⟩
  · have := Cfg.WF.combDelay hwf hi
    rw [lineCap_comb c hi]
    omega
  · have := Cfg.WF.apDelay hwf hj
    rw [lineCap_ap c hj]
    omega

theorem lineCap_pos_of_hasLine {s : State} (hwf : s.cfg.WF) {l : LineId} (hl : s.hasLine l) : 0 < lineCap s.cfg l := by
  obtain ⟨hpre, hcomb, hap⟩ := lineCap_pos hwf
  cases l with
  | pre => exact hpre
  | comb i => exact hcomb i hl.1
  | ap j => exact hap j hl.1

theorem State.Sound.stored {s : State} (h : s.Sound) {l : LineId} {v : Q} (hl : s.hasLine l)
    (haddr : writeAddr l s < s.cfg.memWords) : (stored l v s).Sound := by
  have hstore : State.Sound { s with mem := s.mem.write (writeAddr l s) v } := by
    refine ⟨h.config, h.lengths, ⟨Memory.wf_write h.memory.1 _ _, fun c hc => ?_⟩, fun hready => ?_⟩
    · rcases Memory.mem_write hc with hold | hnew
      · exact h.memory.2 c hold
      · exact hnew ▸ haddr
    · exact engineInv_congr (h.engine hready) rfl rfl rfl rfl rfl rfl rfl rfl rfl rfl rfl rfl rfl rfl
  refine ⟨by simpa [Machine.stored] using h.config, ?_, by simpa [Machine.stored] using hstore.memory, fun hready => ?_⟩
  · cases l <;> simpa [Machine.stored, setCursor] using h.lengths
  · exact (hstore.engine (by simpa [Machine.stored] using hready)).setCursor
      (nextCursor_lt l s (lineCap_pos_of_hasLine h.config hl))

theorem gainRow_bounds {c : Cfg} (hwf : c.WF) (t : BitVec 10) {i : Nat} (hi : i < c.n) :
    0 ≤ ((gainRow c t).getD i 0).toInt ∧ ((gainRow c t).getD i 0).toInt < oneRaw := by
  obtain ⟨hlen, hall⟩ := gainRow_wf hwf t
  have hi' : i < (gainRow c t).length := hlen ▸ hi
  have hgain := List.all_eq_true.mp hall _ (List.getElem_mem hi')
  simpa [List.getD_eq_getElem?_getD, hi'] using hgain

theorem State.Sound.gschedule {s : State} (h : s.Sound) : (gschedule s).Sound := by
  obtain ⟨hdz, hccur, -, hacur⟩ := h.lengths
  exact ⟨h.config, ⟨hdz, hccur, (gainRow_wf h.config s.pTime).1, hacur⟩, h.memory,
    fun hready => { h.engine hready with gains := fun i hi => gainRow_bounds h.config s.pTime hi }⟩

/-- The wet weight of a legal mix lies in `[0, ONE]` (R34). -/
theorem wetWeight_bounds {mix : Int} (h : -1000 ≤ mix ∧ mix ≤ 1000) :
    0 ≤ (wetWeight mix).toInt ∧ (wetWeight mix).toInt ≤ oneRaw := by
  rw [wetWeight_toInt h]
  unfold oneRaw
  omega

theorem sendGain_bounds (d : BitVec 10) : 0 ≤ (sendGain d).toInt ∧ (sendGain d).toInt ≤ 1023 * 2 ^ 14 := by
  have := d.isLt
  rw [sendGain_toInt]
  omega

theorem State.Sound.latchBlock {s : State} (h : s.Sound) : (latchBlock s).Sound := by
  have hg := h.gschedule
  refine ⟨hg.config, hg.lengths, hg.memory, fun hready => ?_⟩
  have hwet := wetWeight_bounds (hg.engine hready).mix
  exact { hg.engine hready with sendGain := sendGain_bounds _, wet := hwet, dry := dryWeight_toInt hwet }

theorem toInt_ofInt11 {v : Int} (h : -1000 ≤ v ∧ v ≤ 1000) : (BitVec.ofInt 11 v).toInt = v := by
  rw [BitVec.toInt_ofInt, Int.bmod_eq_of_le] <;> norm_num <;> omega

theorem clampMix_bounds (v : BitVec 24) : -1000 ≤ (clampMix v).toInt ∧ (clampMix v).toInt ≤ 1000 := by
  have hclamp : -1000 ≤ clamp (operandRaw v) (-1000) 1000 ∧ clamp (operandRaw v) (-1000) 1000 ≤ 1000 := by
    unfold clamp
    omega
  rwa [clampMix, toInt_ofInt11 hclamp]

theorem State.Sound.setMix {s : State} (h : s.Sound) {m : BitVec 11} (hm : -1000 ≤ m.toInt ∧ m.toInt ≤ 1000) :
    State.Sound { s with pMix := m } :=
  ⟨h.config, h.lengths, h.memory, fun hready => { h.engine hready with mix := hm }⟩

theorem getD_replicate_self {α : Type} (d : α) (m k : Nat) : (List.replicate m d).getD k d = d := by
  rw [List.getD_eq_getElem?_getD, List.getElem?_getD_replicate_default_eq]

/-- A successful INIT leaves a good engine (R48, R171). -/
theorem State.Sound.clearEngine {s : State} (h : s.Sound) (hmem : s.cfg.reqWords ≤ s.cfg.memWords) :
    State.Sound { clearEngine s with mode := .ready } := by
  have ⟨_, _, _, _, _, _, _, _, hmix, _⟩ := h.config
  have hwet := wetWeight_bounds hmix
  obtain ⟨hpre, hcomb, hap⟩ := lineCap_pos h.config
  refine ⟨h.config, ⟨List.length_replicate, List.length_replicate, (gainRow_wf h.config 0).1, List.length_replicate⟩,
    ⟨Memory.wf_clear h.memory.1 _, fun c hc => h.memory.2 c (Memory.mem_clear hc).1⟩, fun _ => ?_⟩
  have hzero : ∀ k, QA.within 0 k := fun k => by simp [QA.within]
  exact {
    storage := hmem
    preCursor := hpre
    combCursors := fun i hi => (getD_replicate_self 0 s.cfg.n i).trans_lt (hcomb i hi)
    apCursors := fun j hj => (getD_replicate_self 0 s.cfg.m j).trans_lt (hap j hj)
    mix := (toInt_ofInt11 hmix).symm ▸ hmix
    gains := fun i hi => gainRow_bounds h.config 0 hi
    sendGain := sendGain_bounds 0
    wet := hwet
    dry := dryWeight_toInt hwet
    lpTaps := ⟨hzero 64, hzero 63⟩
    hpTaps := ⟨hzero 64, hzero 63⟩
    dzTaps := fun i _ => (getD_replicate_self (0 : QA) s.cfg.n i).symm ▸ hzero 63 }

/-- What a failed INIT and a hardware reset leave is good: the engine is not READY. -/
theorem State.Sound.scramble {s : State} (h : s.Sound) {words : Nat} (hwords : words ≤ s.cfg.memWords) :
    State.Sound { scramble words s with mode := .uninit } := by
  refine ⟨h.config, ?_, ⟨Memory.wf_scramble h.memory.1 _ _, fun c hc => ?_⟩, fun hready => nomatch hready⟩
  · simp [Machine.scramble]
  · rcases Memory.mem_scramble hc with hold | hnew
    · exact h.memory.2 c hold
    · exact Nat.lt_of_lt_of_le hnew hwords

/-! ### Sequenced: where each move of the sequencer leads -/

theorem sequenced_of_idle {s : State} (hseq : s.seq = Seq.idle) (hfcnt : s.fcnt = 0) (hidx : s.idx = 0) :
    s.Sequenced := by
  constructor <;> simp [hseq, hfcnt, hidx, Seq.idle, Seq.comb, Seq.cnorm, Seq.ap]

/-- Inside a RENDER the sequencer may stand at any code that works on no line. -/
theorem sequenced_goto {s : State} (hbusy : s.mode = .ready ∧ s.fcnt ≠ 0) {code : BitVec 5}
    (hcode : code.toNat ≤ 14) (hline : code ∉ [Seq.idle, Seq.comb, Seq.cnorm, Seq.ap]) : (goto code 0 s).Sequenced := by
  obtain ⟨hmode, hfcnt⟩ := hbusy
  simp only [List.mem_cons, List.not_mem_nil, or_false, not_or] at hline
  obtain ⟨hidle, hcomb, hcnorm, hap⟩ := hline
  exact {
    idle := fun h => absurd h hidle
    busy := fun _ => ⟨hmode, hfcnt, hcode⟩
    combIdx := fun h => absurd h hcomb
    cnormResults := fun h => absurd h hcnorm
    apIdx := fun h => absurd h hap
    otherIdx := fun _ _ => rfl }

theorem sequenced_goto_comb {s : State} (hbusy : s.mode = .ready ∧ s.fcnt ≠ 0) {idx : BitVec 6}
    (hidx : idx.toNat < s.cfg.n) (hr : s.wires.r.length = idx.toNat) : (goto Seq.comb idx s).Sequenced := by
  obtain ⟨hmode, hfcnt : ¬ s.fcnt = 0#24⟩ := hbusy
  constructor <;> simp [hmode, hidx, hr, hfcnt, Seq.idle, Seq.comb, Seq.cnorm, Seq.ap]

theorem sequenced_goto_cnorm {s : State} (hbusy : s.mode = .ready ∧ s.fcnt ≠ 0)
    (hr : s.wires.r.length = s.cfg.n) : (goto Seq.cnorm 0 s).Sequenced := by
  obtain ⟨hmode, hfcnt : ¬ s.fcnt = 0#24⟩ := hbusy
  constructor <;> simp [hmode, hr, hfcnt, Seq.idle, Seq.comb, Seq.cnorm, Seq.ap]

theorem sequenced_goto_ap {s : State} (hbusy : s.mode = .ready ∧ s.fcnt ≠ 0) {idx : BitVec 6}
    (hidx : idx.toNat < s.cfg.m) : (goto Seq.ap idx s).Sequenced := by
  obtain ⟨hmode, hfcnt : ¬ s.fcnt = 0#24⟩ := hbusy
  constructor <;> simp [hmode, hidx, hfcnt, Seq.idle, Seq.comb, Seq.cnorm, Seq.ap]

/-! ### Which instruction is due -/

/-- The instruction that the core runs next: inside a RENDER the one whose code is in `STEP`, between commands a command or
IDLE (R43, R89). -/
def State.due (s : State) (i : Instr) : Prop := encode i = .seq s.seq ∨ (s.seq = Seq.idle ∧ i.isCommand)

/-- The STEP codes that stand for an operation are the operations' own codes (R89). -/
theorem decodeSeq_encode : ∀ c : BitVec 5, ∀ i ∈ (decodeSeq c).toOption, encode i = .seq c := by decide

theorem encode_of_decodeSeq {c : BitVec 5} {i : Instr} (h : decodeSeq c = .ok i) : encode i = .seq c :=
  decodeSeq_encode c i (by rw [h]; rfl)

theorem decodeCmd_isCommand (w : CmdWord) : (decodeCmd w).isCommand := by
  simp only [decodeCmd, decodeSetp, decodeGetp]
  split_ifs <;> exact ⟨_, rfl⟩

theorem due_of_decode {s : State} {i : Instr} (h : decode (fetchCode s) = .ok i) : s.due i := by
  by_cases hseq : s.seq = Seq.idle
  · cases hcmd : s.cmdIn with
    | nil =>
      rw [fetchCode_of_no_offer hseq hcmd] at h
      exact .inl (hseq ▸ encode_of_decodeSeq h)
    | cons w rest =>
      rw [fetchCode_of_offer hseq hcmd] at h
      cases h
      exact .inr ⟨hseq, decodeCmd_isCommand w⟩
  · rw [fetchCode_of_busy hseq] at h
    exact .inl (encode_of_decodeSeq h)

/-- An operation of the schedule is due only at its own STEP code. -/
theorem State.due.seq_eq {s : State} {i : Instr} {c : BitVec 5} (h : s.due i) (hi : encode i = .seq c) : s.seq = c := by
  rcases h with hseq | ⟨-, w, hw⟩
  · rw [hi] at hseq
    exact (Code.seq.inj hseq).symm
  · simp [hi] at hw

/-! ### Every instruction keeps both parts -/

theorem exec_sound {i : Instr} {s t : State} (hs : s.Sound) (h : exec i s = .next t) : t.Sound := by
  cases exec_footprint h with
  | initFails st => exact (hs.scramble (Nat.min_le_left _ _)).congr rfl
  | initClears hmem => exact (hs.clearEngine hmem).congr rfl
  | setsMix v => exact (hs.setMix (clampMix_bounds v)).congr rfl
  | latches => exact hs.latchBlock.congr rfl
  | schedules => exact hs.gschedule.congr rfl
  | filtersLow w h1 h2 =>
    exact ((hs.setTap fun hready => h1 (hs.engine hready).lpTaps.2).setTap fun _ => h2).congr rfl
  | filtersHigh w h1 h2 =>
    exact ((hs.setTap fun hready => h1 (hs.engine hready).hpTaps.2).setTap fun _ => h2).congr rfl
  | delays v _ haddr => exact (hs.stored (l := .pre) trivial haddr).congr rfl
  | @combs w z code k v a hline _ hz haddr _ =>
    obtain ⟨hn, hccur, -, -⟩ := hline
    have hz' : (setAcc a (setTap (.dz s.idx.toNat) z s)).Sound := (hs.setTap fun _ => hz).congr rfl
    exact (hz'.stored (l := .comb s.idx.toNat) ⟨hn, hccur⟩ haddr).congr rfl
  | allPasses w v a hline haddr =>
    have ha : (setAcc a s).Sound := hs.congr rfl
    exact (ha.stored (l := .ap s.idx.toNat) hline haddr).congr rfl
  | _ => exact hs.congr rfl

/-- `IDX + 1` is the next line's index while it names a line: there are at most 64 (R8(a), R27). -/
theorem toNat_idx_succ {idx : BitVec 6} {n : Nat} (h : idx.toNat + 1 < n) (hn : n ≤ 64) :
    (idx + 1).toNat = idx.toNat + 1 := by
  rw [BitVec.toNat_add]
  exact Nat.mod_eq_of_lt (by simpa using Nat.lt_of_lt_of_le h hn)

theorem exec_sequenced {i : Instr} {s t : State} (hwf : s.cfg.WF) (hs : s.Sequenced) (hdue : s.due i)
    (h : exec i s = .next t) : t.Sequenced := by
  have ⟨⟨hn1, hn64, hm1, hm64⟩, _⟩ := hwf
  have hbusy : ∀ {c}, encode i = .seq c → c ≠ Seq.idle → s.mode = .ready ∧ s.fcnt ≠ 0 := by
    intro c hi hc
    obtain ⟨hmode, hfcnt, -⟩ := hs.busy (hdue.seq_eq hi ▸ hc)
    exact ⟨hmode, hfcnt⟩
  cases exec_footprint h with
  | responds | setsTime | setsDepth | setsMix | idles | waits => exact hs.congr rfl
  | initFails | initClears | emitsLast => exact sequenced_of_idle rfl rfl rfl
  | starts hmode hn =>
    refine sequenced_goto ?_ (by decide) (by decide)
    exact ⟨hmode, hn⟩
  | latches | schedules | takes | filtersLow | filtersHigh =>
    refine sequenced_goto ?_ (by decide) (by decide)
    exact hbusy rfl (by decide)
  | delays v hr =>
    refine sequenced_goto_comb ?_ ?_ (congrArg List.length hr)
    · exact hbusy rfl (by decide)
    · exact hn1
  | combs v a hline hr hz haddr hmove =>
    have hlen := (hs.combIdx (hdue.seq_eq rfl)).2
    cases hmove with
    | next hlt =>
      have hidx := toNat_idx_succ hlt hn64
      refine sequenced_goto_comb ?_ ?_ (hr.trans (hlen.symm ▸ hidx.symm))
      · exact hbusy rfl (by decide)
      · exact hidx.trans_lt hlt
    | last hge =>
      obtain ⟨hn, -⟩ := hline
      have hlast : s.wires.r.length + 1 = s.cfg.n := by omega
      refine sequenced_goto_cnorm ?_ (hr.trans hlast)
      exact hbusy rfl (by decide)
  | allPasses w v a hline haddr hmove =>
    cases hmove with
    | next hlt =>
      refine sequenced_goto_ap ?_ ?_
      · exact hbusy rfl (by decide)
      · exact (toNat_idx_succ hlt hm64).trans_lt hlt
    | last hge =>
      refine sequenced_goto ?_ (by decide) (by decide)
      exact hbusy rfl (by decide)
  | computes w a hi =>
    cases hi with
    | cnorm =>
      refine sequenced_goto_ap ?_ ?_
      · exact hbusy rfl (by decide)
      · exact hm1
    | xfadeL | sclipL | xfadeR | sclipR =>
      refine sequenced_goto ?_ (by decide) (by decide)
      exact hbusy rfl (by decide)
  | emits f hmore =>
    refine sequenced_goto ?_ (by decide) (by decide)
    exact ⟨(hbusy rfl (by decide)).1, fun hzero => hmore (sub_eq_zero.mp hzero)⟩

/-- An instruction that is due keeps the invariant. -/
theorem exec_inv {i : Instr} {s t : State} (hs : s.Inv) (hdue : s.due i) (h : exec i s = .next t) : t.Inv := by
  obtain ⟨hsound, hseq⟩ := inv_iff.mp hs
  exact inv_iff.mpr ⟨exec_sound hsound h, exec_sequenced hs.config hseq hdue h⟩

/-- Accepting a command word and lowering the strobes touches ports alone. -/
theorem accept_inv {s : State} (hs : s.Inv) : (accept s).Inv := by
  obtain ⟨hsound, hseq⟩ := inv_iff.mp hs
  unfold accept
  split
  · exact inv_iff.mpr ⟨hsound.congr rfl, hseq.congr rfl⟩
  · exact inv_iff.mpr ⟨hsound.congr rfl, hseq.congr rfl⟩

theorem accept_seq (s : State) : (accept s).seq = s.seq := by
  unfold accept
  split <;> rfl

theorem hardReset_inv {s : State} (hs : s.Inv) : (hardReset s).Inv :=
  inv_iff.mpr ⟨((inv_iff.mp hs).1.scramble le_rfl).congr rfl, sequenced_of_idle rfl rfl rfl⟩

/-- Everything a step can do. -/
theorem step_cases {s t : State} (h : step s = .next t) :
    (s.rst = true ∧ t = hardReset s) ∨
    (s.rst = false ∧ ∃ i, decode (fetchCode s) = .ok i ∧ exec i (accept s) = .next t) := by
  unfold step at h
  split at h
  · split at h
    next hrst => cases h; exact .inl ⟨hrst, rfl⟩
    next hrst =>
      split at h
      next i hdec => exact .inr ⟨by simpa using hrst, i, hdec, h⟩
      · cases h
  · cases h

theorem step_inv {s t : State} (hs : s.Inv) (h : step s = .next t) : t.Inv := by
  rcases step_cases h with ⟨-, rfl⟩ | ⟨-, i, hdec, hexec⟩
  · exact hardReset_inv hs
  · have hdue : (accept s).due i := by
      rw [State.due, accept_seq]
      exact due_of_decode hdec
    exact exec_inv (accept_inv hs) hdue hexec

theorem resetOf_inv {c : Cfg} (hwf : c.WF) : (State.resetOf c).Inv :=
  inv_iff.mpr ⟨⟨hwf, by simp [State.resetOf], ⟨rfl, by simp [State.resetOf]⟩, fun hready => nomatch hready⟩,
    sequenced_of_idle rfl rfl rfl⟩

theorem ref_wf : Cfg.ref.WF := by decide +kernel

end Machine

/-! ### The obligations -/

open Machine

/-- Settles O47: both parts of the invariant are kept by every instruction, read off its footprint, and a hardware reset
leaves an idle core that is not READY. -/
theorem stepKeepsTheInvariant : Obligations.StepKeepsTheInvariant := fun _ _ hs h => step_inv hs h

/-- Settles O46: after reset the engine is not READY and the sequencer is idle. -/
theorem invariantHoldsAtReset : Obligations.InvariantHoldsAtReset :=
  ⟨resetOf_inv ref_wf, fun _ hwf => resetOf_inv hwf⟩

end Sys2Proof
end

section
/-! PROOFS. Family 10_state.md, one RENDER from its command word to its response (O49). -/

namespace Sys2Proof
namespace Machine

/-! ### A good state never stops inside an operation (R65) -/

theorem dlRd_progress {s : State} (hwf : s.cfg.WF) (hmem : s.cfg.reqWords ≤ s.cfg.memWords) {l : LineId}
    (hl : s.hasLine l) (k : Nat) : ∃ v, dlRd l k s = .ok v := by
  have haddr := (readAddr_lt l k s (lineCap_pos_of_hasLine hwf hl)).2
  have hend := lineEnd_le s.cfg l
  exact ⟨_, dlRd_ok (by omega)⟩

theorem dlWr_progress {s : State} (hmem : s.cfg.reqWords ≤ s.cfg.memWords) {l : LineId} (hcur : s.cursorOk l) (v : Q) :
    dlWr l v s = .ok (stored l v s) := by
  have haddr := (writeAddr_lt l s hcur).2
  have hend := lineEnd_le s.cfg l
  exact dlWr_ok (by omega)

theorem execPdly_progress {s : State} (hwf : s.cfg.WF) (he : s.EngineInv) : ∃ t, execPdly s = .next t := by
  have hwr := dlWr_progress he.storage he.preCursor s.wires.t2
  obtain ⟨p, hrd⟩ := dlRd_progress (s := stored .pre s.wires.t2 s) hwf he.storage (l := .pre) trivial s.cfg.preD
  simp only [execPdly, hwr, hrd]
  exact ⟨_, rfl⟩

theorem execComb_progress {s : State} (hwf : s.cfg.WF) (he : s.EngineInv) (hline : hasComb s s.idx.toNat) :
    ∃ t, execComb s = .next t := by
  obtain ⟨r, hrd⟩ := dlRd_progress hwf he.storage (l := .comb s.idx.toNat) ⟨hline.1, hline.2.1⟩
    (combCfg s.cfg s.idx.toNat).delay
  obtain ⟨z, -, hfilter⟩ := iir1_state (combCfg s.cfg s.idx.toNat).damp (.dz s.idx.toNat) r s
  obtain ⟨a, hmix⟩ := combMix_state s.wires.p
    (iir1 (combCfg s.cfg s.idx.toNat).damp (.dz s.idx.toNat) r s).1 (s.fbg.getD s.idx.toNat 0)
    (setAcc z (setTap (.dz s.idx.toNat) z s))
  have hwr := dlWr_progress (s := setAcc a (setTap (.dz s.idx.toNat) z s)) (l := .comb s.idx.toNat) he.storage (he.combCursors _ hline.1)
  simp only [execComb, if_pos hline, hrd, hmix, hfilter, setAcc_setAcc, hwr]
  exact ⟨_, rfl⟩

theorem execAp_progress {s : State} (hwf : s.cfg.WF) (he : s.EngineInv) (hline : hasAp s s.idx.toNat) :
    ∃ t, execAp s = .next t := by
  obtain ⟨del, hrd⟩ := dlRd_progress hwf he.storage (l := .ap s.idx.toNat) hline
    (apCfg s.cfg s.idx.toNat).delay
  have hwr := fun a => dlWr_progress (s := setAcc a s) (l := .ap s.idx.toNat) he.storage (he.apCursors _ hline.1)
  simp only [execAp, if_pos hline, hrd, apOut_eq, apBack_eq, setAcc_setAcc, hwr]
  exact ⟨_, rfl⟩

/-- An instruction that is due in a good state has a next state. -/
theorem exec_progress {i : Instr} {s : State} (hs : s.Inv) (hdue : s.due i) : ∃ t, exec i s = .next t := by
  have hengine : ∀ {c}, encode i = .seq c → c ≠ Seq.idle → s.EngineInv := fun hi hc =>
    hs.engine (hs.busy (hdue.seq_eq hi ▸ hc)).1
  obtain ⟨hdz, hccur, hfbg, hacur⟩ := hs.lengths
  cases i with
  | init a b f =>
    simp only [exec, execInit]
    split <;> exact ⟨_, rfl⟩
  | send =>
    simp only [exec, execSend]
    split <;> exact ⟨_, rfl⟩
  | pdly => exact execPdly_progress hs.config (hengine rfl (by decide))
  | comb =>
    have hidx := (hs.combIdx (hdue.seq_eq rfl)).1
    exact execComb_progress hs.config (hengine rfl (by decide)) ⟨hidx, by omega, by omega, by omega⟩
  | ap =>
    have hidx := hs.apIdx (hdue.seq_eq rfl)
    exact execAp_progress hs.config (hengine rfl (by decide)) ⟨hidx, by omega⟩
  | emit =>
    simp only [exec, execEmit]
    split <;> exact ⟨_, rfl⟩
  | _ => exact ⟨_, rfl⟩

theorem decodeSeq_used : ∀ c : BitVec 5, c.toNat ≤ 14 → (decodeSeq c).toOption.isSome = true := by decide

/-- Inside a RENDER an operation is due, and it runs (R178). -/
theorem busy_runs {s : State} (hs : s.Inv) (hrst : s.rst = false) (hseq : s.seq ≠ Seq.idle) :
    ∃ i t, encode i = .seq s.seq ∧ exec i (lowerStrobes s) = .next t ∧ step s = .next t := by
  obtain ⟨i, hi⟩ := Option.isSome_iff_exists.mp (decodeSeq_used s.seq (hs.busy hseq).2.2)
  have hdec : decode (fetchCode s) = .ok i := by
    rw [fetchCode_of_busy hseq]
    revert hi
    cases h : decodeSeq s.seq with
    | error e => simp [Except.toOption]
    | ok j => simp [Except.toOption, decode, h]
  have hcode : encode i = .seq s.seq := decodeSeq_encode s.seq i hi
  have haccept := accept_of_busy hseq
  have hinv := accept_inv hs
  rw [haccept] at hinv
  obtain ⟨t, ht⟩ := exec_progress hinv (.inl hcode)
  refine ⟨i, t, hcode, ht, ?_⟩
  rw [step_of_decode hs.config hrst hdec, haccept, ht]

/-! ### The bookkeeping of a RENDER

`renderLeft` counts the steps until the RENDER is over and `framesDue` the frames it has still to take. Each step lowers the
first by one, and one induction on it runs the whole command. -/

/-- How many steps are left until the EMIT of the frame under way is done (R177). -/
def frameLeft (c : Cfg) (code : BitVec 5) (idx : Nat) : Nat :=
  match code.toNat with
  | 1 => c.m + c.n + 11
  | 2 => c.m + c.n + 12
  | 3 => c.m + c.n + 10
  | 4 => c.m + c.n + 9
  | 5 => c.m + c.n + 8
  | 6 => c.m + c.n + 7
  | 7 => c.m + (c.n - idx) + 6
  | 8 => c.m + 6
  | 9 => (c.m - idx) + 5
  | 10 => 5
  | 11 => 4
  | 12 => 3
  | 13 => 2
  | 14 => 1
  | _ => 0

theorem frameLeft_send (c : Cfg) (idx : Nat) : frameLeft c Seq.send idx = frameSteps c := by
  change c.m + c.n + 10 = 10 + c.n + c.m
  omega

theorem frameLeft_comb (c : Cfg) (idx : Nat) : frameLeft c Seq.comb idx = c.m + (c.n - idx) + 6 := rfl
theorem frameLeft_cnorm (c : Cfg) (idx : Nat) : frameLeft c Seq.cnorm idx = c.m + 6 := rfl
theorem frameLeft_ap (c : Cfg) (idx : Nat) : frameLeft c Seq.ap idx = (c.m - idx) + 5 := rfl
theorem frameLeft_xfadeL (c : Cfg) (idx : Nat) : frameLeft c Seq.xfadeL idx = 5 := rfl
theorem frameLeft_emit (c : Cfg) (idx : Nat) : frameLeft c Seq.emit idx = 1 := rfl

/-- How many steps are left until the RENDER under way is over. -/
def renderLeft (s : State) : Nat := frameLeft s.cfg s.seq s.idx.toNat + (s.fcnt.toNat - 1) * frameSteps s.cfg

/-- How many frames the RENDER under way has still to take: from SEND on the frame under way is taken (log 12). -/
def framesDue (s : State) : Nat := if s.seq.toNat ≤ 3 then s.fcnt.toNat else s.fcnt.toNat - 1

/-- What one step inside a RENDER does to the ports and the counters. -/
structure RenderStep (s t : State) : Prop where
  left : renderLeft t + 1 = renderLeft s
  mode : t.mode = s.mode
  rst : t.rst = s.rst
  cmdIn : t.cmdIn = s.cmdIn
  frames : t.frameIn.drop (framesDue t) = s.frameIn.drop (framesDue s)
  enough : framesDue t ≤ t.frameIn.length
  given : ∃ out, t.frameOut = s.frameOut ++ out ∧ out.length + t.fcnt.toNat = s.fcnt.toNat
  ongoing : t.seq ≠ Seq.idle → t.rspOut = s.rspOut
  ended : t.seq = Seq.idle → t.fcnt = 0 ∧ renderLeft t = 0 ∧
    t.rspStatus = Status.ok ∧ t.rspData = 0 ∧ t.rspOut = s.rspOut ++ [⟨Status.ok, 0⟩]

/-- What the steps inside a frame leave alone. -/
structure Ports where
  cfg : Cfg
  mode : Mode
  fcnt : BitVec 24
  rst : Bool
  cmdIn : List CmdWord
  frameOut : List Frame
  rspOut : List Response

def State.ports (s : State) : Ports := ⟨s.cfg, s.mode, s.fcnt, s.rst, s.cmdIn, s.frameOut, s.rspOut⟩

/-- A step inside a frame: one step less is left, and no port but the one of the input frames is touched. -/
theorem RenderStep.inner {s u : State} {c c' : BitVec 5} {k : BitVec 6} (hc : s.seq = c) (hports : u.ports = s.ports)
    (hne : c' ≠ Seq.idle) (hleft : frameLeft s.cfg c' k.toNat + 1 = frameLeft s.cfg c s.idx.toNat)
    (hframes : u.frameIn.drop (framesDue (goto c' k u)) = s.frameIn.drop (framesDue s))
    (henough : framesDue (goto c' k u) ≤ u.frameIn.length) : RenderStep s (goto c' k u) := by
  simp only [State.ports, Ports.mk.injEq] at hports
  obtain ⟨hcfg, hmode, hfcnt, hrst, hcmd, hout, hrsp⟩ := hports
  refine ⟨?_, hmode, hrst, hcmd, hframes, henough, ⟨[], by simp [hout, hfcnt]⟩, fun _ => hrsp, fun h => absurd h hne⟩
  simp only [renderLeft, goto_cfg, goto_fcnt, goto_seq, goto_idx, hcfg, hfcnt, hc, ← hleft]
  omega

/-- A step inside a frame that takes no frame from the port. -/
theorem RenderStep.quiet {s u : State} {c c' : BitVec 5} {k : BitVec 6} (hc : s.seq = c)
    (henough : framesDue s ≤ s.frameIn.length) (hports : u.ports = s.ports) (hin : u.frameIn = s.frameIn)
    (hne : c' ≠ Seq.idle) (hside : c'.toNat ≤ 3 ↔ c.toNat ≤ 3)
    (hleft : frameLeft s.cfg c' k.toNat + 1 = frameLeft s.cfg c s.idx.toNat) : RenderStep s (goto c' k u) := by
  have hfcnt : u.fcnt = s.fcnt := congrArg Ports.fcnt hports
  have hdue : framesDue (goto c' k u) = framesDue s := by
    simp only [framesDue, goto_seq, goto_fcnt, hfcnt, hc, hside]
  exact .inner hc hports hne hleft (by rw [hin, hdue]) (by rw [hin, hdue]; exact henough)

/-- SEND takes one of the frames that are due (R175; log 12). -/
theorem RenderStep.take {s : State} {f : Frame} {rest : List Frame} {w : Wires} {a : QA} (hc : s.seq = Seq.send)
    (hpos : 1 ≤ s.fcnt.toNat) (henough : framesDue s ≤ s.frameIn.length) (hin : s.frameIn = f :: rest) :
    RenderStep s (goto Seq.biqLp 0 (setWires w (setAcc a { s with frameIn := rest }))) := by
  have hdue : framesDue s = (s.fcnt.toNat - 1) + 1 := by
    rw [framesDue, hc, if_pos (by decide)]
    omega
  rw [hdue, hin, List.length_cons] at henough
  refine .inner hc rfl (by decide) rfl ?_ ?_
  · rw [hdue, hin]
    rfl
  · exact Nat.le_of_succ_le_succ henough

/-- EMIT of the last frame ends the RENDER with its one response (R175, R177; log 17). -/
theorem RenderStep.last {s : State} {f : Frame} (hc : s.seq = Seq.emit) (hlast : s.fcnt = 1) :
    RenderStep s (respond Status.ok 0 (goto Seq.idle 0 (giveFrame f { s with fcnt := 0 }))) where
  left := by
    rw [renderLeft, renderLeft, hc, hlast]
    simp [frameLeft]
  mode := rfl
  rst := rfl
  cmdIn := rfl
  frames := by
    rw [framesDue, framesDue, hc, hlast]
    rfl
  enough := Nat.zero_le _
  given := ⟨[f], rfl, by rw [hlast]; rfl⟩
  ongoing := fun h => absurd rfl h
  ended := fun _ => ⟨rfl, by simp [renderLeft, frameLeft], rfl, rfl, rfl⟩

/-- EMIT with frames left goes back to SEND (R175, R177). -/
theorem RenderStep.more {s : State} {f : Frame} (hc : s.seq = Seq.emit) (hfcnt : s.fcnt ≠ 0) (hmore : s.fcnt ≠ 1)
    (henough : framesDue s ≤ s.frameIn.length) :
    RenderStep s (goto Seq.send 0 (giveFrame f { s with fcnt := s.fcnt - 1 })) := by
  obtain ⟨k, hk⟩ : ∃ k, s.fcnt.toNat = k + 2 := Nat.exists_eq_add_of_le' (by bv_omega)
  have hpred : (s.fcnt - 1).toNat = k + 1 := by bv_omega
  have hdue : framesDue s = k + 1 := by rw [framesDue, hc, hk]; rfl
  have hdue' : framesDue (goto Seq.send 0 (giveFrame f { s with fcnt := s.fcnt - 1 })) = k + 1 := hpred
  exact {
    left := by
      simp only [renderLeft, goto_cfg, goto_seq, goto_fcnt, giveFrame_cfg, giveFrame_fcnt, hpred, hc, hk,
        frameLeft_send, frameLeft_emit, Nat.add_sub_cancel]
      rw [show k + 2 - 1 = k + 1 from rfl, Nat.succ_mul]
      omega
    mode := rfl
    rst := rfl
    cmdIn := rfl
    frames := by rw [hdue, hdue']; rfl
    enough := by rw [hdue']; rw [hdue] at henough; exact henough
    given := ⟨[f], rfl, by rw [hk, goto_fcnt, giveFrame_fcnt, hpred]; simp; omega⟩
    ongoing := fun _ => rfl
    ended := fun h => absurd h (by decide : Seq.send ≠ Seq.idle) }

/-- Every operation of the schedule is one step of the RENDER's bookkeeping. -/
theorem exec_renderStep {i : Instr} {s t : State} (hs : s.Inv) (hi : encode i = .seq s.seq) (hseq : s.seq ≠ Seq.idle)
    (henough : framesDue s ≤ s.frameIn.length) (h : exec i s = .next t) : RenderStep s t := by
  obtain ⟨-, hfcnt, -⟩ := hs.busy hseq
  have hpos : 1 ≤ s.fcnt.toNat := by bv_omega
  have hcode : ∀ {c}, encode i = .seq c → s.seq = c := fun hc => (Code.seq.inj (hc.symm.trans hi)).symm
  have ⟨⟨_, hn64, _, hm64⟩, _⟩ := hs.config
  cases exec_footprint h with
  | responds _ _ hcmd =>
    obtain ⟨w, hw⟩ := hcmd
    rw [hi] at hw
    cases hw
  | initFails | initClears | setsTime | setsDepth | setsMix | starts => cases hi
  | idles => exact absurd (hcode rfl) hseq
  | latches | schedules | filtersLow | filtersHigh | delays =>
    exact .quiet (hcode rfl) henough rfl rfl (by decide) (by decide) rfl
  | waits hin =>
    rw [framesDue, hcode rfl, if_pos (by decide), hin] at henough
    exact absurd henough (Nat.not_le_of_lt hpos)
  | takes w a hin => exact .take (hcode rfl) hpos henough hin
  | combs v a hline hr hz haddr hmove =>
    obtain ⟨hn, -⟩ := hline
    cases hmove with
    | next hlt =>
      refine .quiet (hcode rfl) henough rfl rfl (by decide) (by decide) ?_
      rw [toNat_idx_succ hlt hn64, frameLeft_comb, frameLeft_comb]
      omega
    | last hge =>
      refine .quiet (hcode rfl) henough rfl rfl (by decide) (by decide) ?_
      rw [frameLeft_comb, frameLeft_cnorm]
      omega
  | allPasses w v a hline haddr hmove => 
    obtain ⟨hm, -⟩ := hline
    cases hmove with
    | next hlt =>
      refine .quiet (hcode rfl) henough rfl rfl (by decide) (by decide) ?_
      rw [toNat_idx_succ hlt hm64, frameLeft_ap, frameLeft_ap]
      omega
    | last hge =>
      refine .quiet (hcode rfl) henough rfl rfl (by decide) (by decide) ?_
      rw [frameLeft_ap, frameLeft_xfadeL]
      omega
  | computes w a hstraight =>
    cases hstraight with
    | cnorm | xfadeL | sclipL | xfadeR | sclipR =>
      exact .quiet (hcode rfl) henough rfl rfl (by decide) (by decide) rfl
  | emitsLast f hlast => exact .last (hcode rfl) hlast
  | emits f hmore => exact .more (hcode rfl) hfcnt hmore henough

theorem step_renderStep {s : State} (hs : s.Inv) (hrst : s.rst = false) (hseq : s.seq ≠ Seq.idle)
    (henough : framesDue s ≤ s.frameIn.length) : ∃ t, step s = .next t ∧ RenderStep s t := by
  obtain ⟨i, t, hi, hexec, hstep⟩ := busy_runs hs hrst hseq
  have hinv := accept_inv hs
  rw [accept_of_busy hseq] at hinv
  exact ⟨t, hstep, { exec_renderStep hinv hi hseq henough hexec with }⟩

/-- A run begins with one step. -/
theorem run_succ {M : Host.Core} {s t : M.State} (h : M.step s = .next t) (k : Nat) : M.run (k + 1) s = M.run k t := by
  rw [Host.Core.run, h]

/-- How a RENDER ends: idle, with every frame due taken, one frame given for each one counted, and one response. -/
structure RenderEnds (s t : State) : Prop where
  seq : t.seq = Seq.idle
  fcnt : t.fcnt = 0
  mode : t.mode = s.mode
  cmdIn : t.cmdIn = s.cmdIn
  frames : t.frameIn = s.frameIn.drop (framesDue s)
  given : ∃ out, out.length = s.fcnt.toNat ∧ t.frameOut = s.frameOut ++ out
  response : t.rspStatus = Status.ok ∧ t.rspData = 0 ∧ t.rspOut = s.rspOut ++ [⟨Status.ok, 0⟩]

/-- The step that ends the RENDER. -/
theorem RenderStep.ends {s t : State} (h : RenderStep s t) (hidle : t.seq = Seq.idle) : RenderEnds s t := by
  obtain ⟨hfcnt, -, hresponse⟩ := h.ended hidle
  obtain ⟨out, hout, hlen⟩ := h.given
  have hnone : framesDue t = 0 := by rw [framesDue, hidle, hfcnt]; rfl
  have hframes := h.frames
  rw [hnone, List.drop_zero] at hframes
  rw [hfcnt] at hlen
  exact ⟨hidle, hfcnt, h.mode, h.cmdIn, hframes, ⟨out, hlen, hout⟩, hresponse⟩

/-- A step before one that ends in `u`. -/
theorem RenderStep.trans_ends {s t u : State} (h : RenderStep s t) (hbusy : t.seq ≠ Seq.idle) (hu : RenderEnds t u) :
    RenderEnds s u := by
  obtain ⟨out, hout, hlen⟩ := h.given
  obtain ⟨more, hmorelen, hmore⟩ := hu.given
  have hrsp := h.ongoing hbusy
  refine ⟨hu.seq, hu.fcnt, hu.mode.trans h.mode, hu.cmdIn.trans h.cmdIn, hu.frames.trans h.frames,
    ⟨out ++ more, ?_, ?_⟩, hrsp ▸ hu.response⟩
  · rw [List.length_append, hmorelen, hlen]
  · rw [hmore, hout, List.append_assoc]

/-- A RENDER under way whose frames are offered ends after `renderLeft` steps. -/
theorem render_runs (k : Nat) : ∀ {s : State}, s.Inv → s.rst = false → s.seq ≠ Seq.idle →
    framesDue s ≤ s.frameIn.length → renderLeft s = k → ∃ t, Sys2Proof.core.run k s = .next t ∧ RenderEnds s t := by
  induction k with
  | zero =>
    intro s hs hrst hseq henough hk
    obtain ⟨t, -, hst⟩ := step_renderStep hs hrst hseq henough
    have := hst.left
    omega
  | succ k ih =>
    intro s hs hrst hseq henough hk
    obtain ⟨t, hstep, hst⟩ := step_renderStep hs hrst hseq henough
    have hleft := hst.left
    by_cases hidle : t.seq = Seq.idle
    · have hzero := (hst.ended hidle).2.1
      obtain rfl : k = 0 := by omega
      exact ⟨t, run_succ (M := Sys2Proof.core) hstep 0, hst.ends hidle⟩
    · obtain ⟨u, hrun, hu⟩ := ih (step_inv hs hstep) (hst.rst.trans hrst) hidle hst.enough (by omega)
      exact ⟨u, (run_succ (M := Sys2Proof.core) hstep k).trans hrun, hst.trans_ends hidle hu⟩

theorem whenReady_of_ready {act : State → State} {s : State} (hmode : s.mode = .ready) : whenReady s act = act s := by
  rw [whenReady, hmode]

theorem execRender_starts {s : State} {ign : BitVec 4} {n : BitVec 24} (hmode : s.mode = .ready) (hn : n ≠ 0) :
    execRender ign n s = .next (goto Seq.blkpro 0 { s with fcnt := n }) := by
  rw [execRender, whenReady_of_ready hmode, if_neg (show ¬ n = 0#24 from hn)]

/-- The state in which the schedule of a RENDER of `n` frames begins, with the commands `rest` still offered. -/
def renderStart (n : BitVec 24) (rest : List CmdWord) (s : State) : State :=
  goto Seq.blkpro 0 { lowerStrobes s with cmdIn := rest, fcnt := n }

/-- The command step of a RENDER (R175). -/
theorem step_render {s : State} {w : CmdWord} {rest : List CmdWord} {ign : BitVec 4} {n : BitVec 24} (hs : s.Inv)
    (hrst : s.rst = false) (hmode : s.mode = .ready) (hseq : s.seq = Seq.idle) (hcmd : s.cmdIn = w :: rest)
    (hdec : decodeCmd w = .render ign n) (hn : n ≠ 0) : step s = .next (renderStart n rest s) := by
  have hfetch : decode (fetchCode s) = .ok (.render ign n) := by rw [fetchCode_of_offer hseq hcmd, ← hdec]; rfl
  rw [step_of_decode hs.config hrst hfetch, accept_of_idle hseq, hcmd]
  exact execRender_starts (ign := ign) hmode hn

theorem renderLeft_renderStart {n : BitVec 24} (hn : n ≠ 0) (rest : List CmdWord) (s : State) :
    renderLeft (renderStart n rest s) = 1 + n.toNat * frameSteps s.cfg := by
  obtain ⟨k, hk⟩ : ∃ k, n.toNat = k + 1 := Nat.exists_eq_add_of_le' (by bv_omega)
  have hblk : frameLeft s.cfg Seq.blkpro 0 = 1 + frameSteps s.cfg := by
    change s.cfg.m + s.cfg.n + 11 = 1 + (10 + s.cfg.n + s.cfg.m)
    omega
  change frameLeft s.cfg Seq.blkpro 0 + (n.toNat - 1) * frameSteps s.cfg = _
  rw [hblk, hk, Nat.add_sub_cancel, Nat.succ_mul]
  omega

end Machine

/-! ### The obligation -/

open Machine

/-- Settles O49: the command step leads to BLKPRO with the frames due, and `render_runs` runs the schedule from there. -/
theorem renderTakesAndGivesExactlyItsFrames : Obligations.RenderTakesAndGivesExactlyItsFrames := by
  intro s w rest ign n hs hrst hmode hseq hcmd hdec hn henough
  have hstep := step_render hs hrst hmode hseq hcmd hdec hn
  have hsteps : renderLeft (renderStart n rest s) = 1 + n.toNat * frameSteps s.cfg := renderLeft_renderStart hn rest s
  obtain ⟨t, hrun, ht⟩ := render_runs _ (step_inv hs hstep) hrst (show Seq.blkpro ≠ Seq.idle by decide) henough rfl
  refine ⟨t, ?_, ht.seq, ht.fcnt, ht.mode.trans hmode, ht.cmdIn, ht.frames, ht.given, ht.response⟩
  rw [show 2 + n.toNat * frameSteps s.cfg = renderLeft (renderStart n rest s) + 1 by omega,
    run_succ (M := Sys2Proof.core) hstep, hrun]

end Sys2Proof
end

section
/-! PROOFS. Family 20_memory.md: the region map (O12), no good state stops (O48), the words beyond the lines (O57). -/

namespace Sys2Proof
namespace Machine

/-! ### The region map (R61, R62) -/

theorem combBase_zero (c : Cfg) : c.combBase 0 = c.preCap := by
  simp [Cfg.combBase]

theorem combBase_succ (c : Cfg) (i : Nat) : c.combBase (i + 1) = c.combBase i + lineCap c (.comb i) := by
  simp only [Cfg.combBase, lineCap, take_map_sum_succ, Nat.add_assoc]

theorem apBase_zero (c : Cfg) : c.apBase 0 = c.combBase c.n := by
  simp [Cfg.apBase]

theorem apBase_succ (c : Cfg) (j : Nat) : c.apBase (j + 1) = c.apBase j + lineCap c (.ap j) := by
  simp only [Cfg.apBase, lineCap, take_map_sum_succ, Nat.add_assoc]

/-- The base after the last all-pass line would be `REQ_WORDS` (R62). -/
theorem apBase_m (c : Cfg) : c.apBase c.m = c.reqWords := by
  simp [Cfg.apBase, Cfg.combBase, Cfg.reqWords, Cfg.n, Cfg.m]

theorem combBase_mono (c : Cfg) : Monotone c.combBase :=
  monotone_nat_of_le_succ fun i => (combBase_succ c i).symm ▸ Nat.le_add_right ..

theorem apBase_mono (c : Cfg) : Monotone c.apBase :=
  monotone_nat_of_le_succ fun j => (apBase_succ c j).symm ▸ Nat.le_add_right ..

/-- No comb region reaches beyond the bases of the lines there are; one that is missing is empty. -/
theorem combEnd_le (c : Cfg) (i : Nat) : c.combBase i + lineCap c (.comb i) ≤ c.combBase c.n := by
  have := take_map_sum_add_le (·.cap) c.combs i
  simp only [Cfg.combBase, lineCap, Cfg.n, List.take_length]
  omega

/-- The order of the lines in DMEM (R61): pre-delay, combs, all-passes. -/
inductive LineBefore : LineId → LineId → Prop
  | preComb (i : Nat) : LineBefore .pre (.comb i)
  | preAp (j : Nat) : LineBefore .pre (.ap j)
  | combs {i i' : Nat} (h : i < i') : LineBefore (.comb i) (.comb i')
  | combAp (i j : Nat) : LineBefore (.comb i) (.ap j)
  | aps {j j' : Nat} (h : j < j') : LineBefore (.ap j) (.ap j')

theorem lineBefore_or_of_ne {l l' : LineId} (h : l ≠ l') : LineBefore l l' ∨ LineBefore l' l := by
  cases l with
  | pre =>
    cases l' with
    | pre => exact absurd rfl h
    | comb i' => exact .inl (.preComb i')
    | ap j' => exact .inl (.preAp j')
  | comb i =>
    cases l' with
    | pre => exact .inr (.preComb i)
    | comb i' => exact (Nat.lt_or_gt_of_ne fun e => h (congrArg _ e)).imp .combs .combs
    | ap j' => exact .inl (.combAp i j')
  | ap j =>
    cases l' with
    | pre => exact .inr (.preAp j)
    | comb i' => exact .inr (.combAp i' j)
    | ap j' => exact (Nat.lt_or_gt_of_ne fun e => h (congrArg _ e)).imp .aps .aps

/-- A line's region ends where the region of a later line begins, or before it. -/
theorem LineBefore.end_le {l l' : LineId} (h : LineBefore l l') (c : Cfg) :
    lineBase c l + lineCap c l ≤ lineBase c l' := by
  have hpre : ∀ i, c.preCap ≤ c.combBase i := fun i => combBase_zero c ▸ combBase_mono c (Nat.zero_le i)
  have hcombs : ∀ j, c.combBase c.n ≤ c.apBase j := fun j => apBase_zero c ▸ apBase_mono c (Nat.zero_le j)
  cases h with
  | preComb i => simpa [lineBase, lineCap] using hpre i
  | preAp j => simpa [lineBase, lineCap] using (hpre c.n).trans (hcombs j)
  | @combs i i' hlt => exact combBase_succ c i ▸ combBase_mono c hlt
  | combAp i j => exact (combEnd_le c i).trans (hcombs j)
  | @aps j j' hlt => exact apBase_succ c j ▸ apBase_mono c hlt

theorem line_regions_disjoint (c : Cfg) {l l' : LineId} (hne : l ≠ l') {a : Nat} (hlo : lineBase c l ≤ a)
    (hhi : a < lineBase c l + lineCap c l) : a < lineBase c l' ∨ lineBase c l' + lineCap c l' ≤ a := by
  rcases lineBefore_or_of_ne hne with hbefore | hafter
  · exact .inl (Nat.lt_of_lt_of_le hhi (hbefore.end_le c))
  · exact .inr ((hafter.end_le c).trans hlo)

/-! ### Progress (R65, R178, R201) -/

theorem idle_decodes {s : State} (hseq : s.seq = Seq.idle) : ∃ i, decode (fetchCode s) = .ok i := by
  cases hcmd : s.cmdIn with
  | nil => exact ⟨.idle, by rw [fetchCode_of_no_offer hseq hcmd]; rfl⟩
  | cons w rest => exact ⟨decodeCmd w, by rw [fetchCode_of_offer hseq hcmd]; rfl⟩

/-- The instruction that is fetched is due in the state it runs in. -/
theorem accept_due {s : State} {i : Instr} (hdec : decode (fetchCode s) = .ok i) : (accept s).due i := by
  rw [State.due, accept_seq]
  exact due_of_decode hdec

theorem idle_runs {s : State} (hs : s.Inv) (hrst : s.rst = false) (hseq : s.seq = Seq.idle) :
    ∃ t, step s = .next t := by
  obtain ⟨i, hdec⟩ := idle_decodes hseq
  rw [step_of_decode hs.config hrst hdec]
  exact exec_progress (accept_inv hs) (accept_due hdec)

theorem step_of_rst {s : State} (hwf : s.cfg.WF) (hrst : s.rst = true) : step s = .next (hardReset s) := by
  rw [step, if_pos hwf, if_pos hrst]

/-! ### The words from `REQ_WORDS` on (R61) -/

/-- An operation of the schedule is due only in a READY engine. -/
theorem engineInv_of_due {s : State} (hs : s.Inv) {i : Instr} (hdue : s.due i) {c : BitVec 5}
    (hi : encode i = .seq c) (hc : c ≠ Seq.idle) : s.EngineInv :=
  hs.engine (hs.busy (hdue.seq_eq hi ▸ hc)).1

/-- A store at a legal cursor lands in its line's region, so below `REQ_WORDS`. -/
theorem read_stored_beyond {l : LineId} {v : Q} {s : State} (hwf : s.mem.wf = true) (hcur : s.cursorOk l) {a : Nat}
    (ha : s.cfg.reqWords ≤ a) : (stored l v s).mem.read a = s.mem.read a :=
  read_stored hwf (ne_writeAddr hcur (.inr ((lineEnd_le s.cfg l).trans ha)))

theorem exec_read_beyond {i : Instr} {s t : State} (hs : s.Inv) (hdue : s.due i) (h : exec i s = .next t) {a : Nat}
    (ha : s.cfg.reqWords ≤ a) : t.mem.read a = s.mem.read a := by
  have hwf := hs.memory.1
  cases exec_footprint h with
  | initFails st =>
    exact Memory.read_scramble_above _ _ ((Nat.min_le_right ..).trans ha)
  | initClears =>
    exact (Memory.read_clear s.mem _ a).trans (if_neg (Nat.not_lt.mpr ha))
  | delays v =>
    have he := engineInv_of_due hs hdue rfl (by decide)
    exact read_stored_beyond hwf he.preCursor ha
  | @combs w z code k v x hline =>
    have he := engineInv_of_due hs hdue rfl (by decide)
    exact read_stored_beyond (l := .comb s.idx.toNat) (s := setAcc x (setTap (.dz s.idx.toNat) z s)) hwf
      (he.combCursors _ hline.1) ha
  | allPasses w v x hline =>
    have he := engineInv_of_due hs hdue rfl (by decide)
    exact read_stored_beyond (l := .ap s.idx.toNat) (s := setAcc x s) hwf (he.apCursors _ hline.1) ha
  | _ => rfl

theorem accept_frame (s : State) : (accept s).cfg = s.cfg ∧ (accept s).mem = s.mem := by
  unfold accept
  split <;> exact ⟨rfl, rfl⟩

end Machine

/-! ### The obligations -/

open Machine

/-- Settles O12: each base is the one before it plus that line's capacity, so the regions stand in the order of the lines,
and the addresses of DL.RD and DL.WR at a legal cursor lie in the line's region. -/
theorem lineRegionsTileTheMemory : Obligations.LineRegionsTileTheMemory := by
  intro c
  refine ⟨rfl, combBase_zero c, fun i _ => combBase_succ c i, fun i hlast => ?_, fun j _ => apBase_succ c j,
    fun j hlast => ?_, fun _ _ _ hne => line_regions_disjoint c hne, fun s l k hcfg hcur => ?_⟩
  · exact (apBase_zero c).trans (hlast ▸ combBase_succ c i)
  · exact (apBase_m c).symm.trans (hlast ▸ apBase_succ c j)
  · subst hcfg
    have hend := lineEnd_le s.cfg l
    obtain ⟨hrlo, hrhi⟩ := readAddr_lt l k s (Nat.zero_lt_of_lt hcur)
    obtain ⟨hwlo, hwhi⟩ := writeAddr_lt l s hcur
    exact ⟨⟨hrlo, hrhi, hrhi.trans_le hend⟩, hwlo, hwhi, hwhi.trans_le hend⟩

/-- Settles O48: a hardware reset always has a next state; otherwise an instruction is due, and it runs. -/
theorem goodStatesNeverStop : Obligations.GoodStatesNeverStop := by
  intro s hs
  cases hrst : s.rst with
  | true => exact ⟨_, step_of_rst hs.config hrst⟩
  | false =>
    by_cases hseq : s.seq = Seq.idle
    · exact idle_runs hs hrst hseq
    · obtain ⟨_, t, -, -, hstep⟩ := busy_runs hs hrst hseq
      exact ⟨t, hstep⟩

/-- Settles O57: INIT touches words below `REQ_WORDS` alone, and a store of the schedule lands inside its line. -/
theorem wordsBeyondTheLinesNeverChange : Obligations.WordsBeyondTheLinesNeverChange := by
  intro s t hs hrst hstep a ha
  obtain ⟨hcfg, hmem⟩ := accept_frame s
  rcases step_cases hstep with ⟨hreset, -⟩ | ⟨-, i, hdec, hexec⟩
  · simp [hrst] at hreset
  · rw [← hmem]
    exact exec_read_beyond (accept_inv hs) (accept_due hdec) hexec (hcfg.symm ▸ ha)

end Sys2Proof
end

section
/-! PROOFS. Family 30_encoding.md: decoding and encoding undo each other (O1, O2), the opcode table's rows (O3), the vector
words (O4), the unused STEP codes (O5), the ignored bits (O25). -/

namespace Sys2Proof

/-! ### The fields of a word that is put together from its fields (R80, R81) -/

@[simp] theorem fieldOp_append_rest (op : BitVec 4) (rest : BitVec 28) : fieldOp (op ++ rest) = op :=
  BitVec.extractLsb'_append_eq_left

@[simp] theorem fieldImm_append (top : BitVec 8) (imm : BitVec 24) : fieldImm (top ++ imm) = imm :=
  BitVec.extractLsb'_append_eq_right

/-- A field above `IMM` is a field of the top byte. -/
theorem field_append_imm (top : BitVec 8) (imm : BitVec 24) (start len : Nat) :
    BitVec.extractLsb' (24 + start) len (top ++ imm) = top.extractLsb' start len := by
  rw [BitVec.extractLsb'_append_eq_of_le (Nat.le_add_right 24 start), Nat.add_sub_cancel_left]

@[simp] theorem fieldOp_append (op id : BitVec 4) (imm : BitVec 24) : fieldOp (op ++ id ++ imm) = op :=
  (field_append_imm _ imm 4 4).trans BitVec.extractLsb'_append_eq_left

@[simp] theorem fieldA_append (op id : BitVec 4) (imm : BitVec 24) : fieldA (op ++ id ++ imm) = id :=
  (field_append_imm _ imm 0 4).trans BitVec.extractLsb'_append_eq_right

@[simp] theorem fieldOp_append_channels (op : BitVec 4) (inch outch : BitVec 2) (imm : BitVec 24) :
    fieldOp (op ++ inch ++ outch ++ imm) = op :=
  (field_append_imm _ imm 4 4).trans
    ((BitVec.extractLsb'_append_eq_of_le (by decide)).trans BitVec.extractLsb'_append_eq_left)

@[simp] theorem fieldInch_append (op : BitVec 4) (inch outch : BitVec 2) (imm : BitVec 24) :
    fieldInch (op ++ inch ++ outch ++ imm) = inch :=
  (field_append_imm _ imm 2 2).trans
    ((BitVec.extractLsb'_append_eq_of_le (by decide)).trans BitVec.extractLsb'_append_eq_right)

@[simp] theorem fieldOutch_append (op : BitVec 4) (inch outch : BitVec 2) (imm : BitVec 24) :
    fieldOutch (op ++ inch ++ outch ++ imm) = outch :=
  (field_append_imm _ imm 0 2).trans BitVec.extractLsb'_append_eq_right

/-! ### A word is put together from its own fields -/

theorem op_append_rest (w : CmdWord) : fieldOp w ++ w.extractLsb' 0 28 = w :=
  BitVec.extractLsb'_append_extractLsb' (w := 4) (len := 28)

theorem op_append_id_append_imm (w : CmdWord) : fieldOp w ++ fieldA w ++ fieldImm w = w := by
  have htop : fieldOp w ++ fieldA w = w.extractLsb' 24 8 := BitVec.extractLsb'_append_extractLsb'_eq_extractLsb' rfl
  rw [htop]
  exact BitVec.extractLsb'_append_extractLsb' (w := 8) (len := 24)

theorem op_append_channels_append_imm (w : CmdWord) : fieldOp w ++ fieldInch w ++ fieldOutch w ++ fieldImm w = w := by
  have hupper : fieldOp w ++ fieldInch w = w.extractLsb' 26 6 := BitVec.extractLsb'_append_extractLsb'_eq_extractLsb' rfl
  have htop : w.extractLsb' 26 6 ++ fieldOutch w = w.extractLsb' 24 8 :=
    BitVec.extractLsb'_append_extractLsb'_eq_extractLsb' rfl
  rw [hupper, htop]
  exact BitVec.extractLsb'_append_extractLsb' (w := 8) (len := 24)

/-- A part of `OP` is a field of the word. -/
theorem extract_fieldOp (w : CmdWord) {start len : Nat} (h : start + len ≤ 4) :
    (fieldOp w).extractLsb' start len = w.extractLsb' (28 + start) len := by
  refine BitVec.eq_of_getElem_eq fun i hi => ?_
  have hbit : start + i < 4 := by omega
  simp [fieldOp, hbit, Nat.add_assoc]

theorem opHigh3_append_rest (w : CmdWord) : (fieldOp w).extractLsb' 1 3 ++ w.extractLsb' 0 29 = w := by
  rw [extract_fieldOp w (by decide)]
  exact BitVec.extractLsb'_append_extractLsb' (w := 3) (len := 29)

theorem opHigh1_append_rest (w : CmdWord) : (fieldOp w).extractLsb' 3 1 ++ w.extractLsb' 0 31 = w := by
  rw [extract_fieldOp w (by decide)]
  exact BitVec.extractLsb'_append_extractLsb' (w := 1) (len := 31)

@[simp] theorem opHigh3_append (high : BitVec 3) (rest : BitVec 29) :
    (fieldOp (high ++ rest)).extractLsb' 1 3 = high :=
  (extract_fieldOp _ (by decide)).trans BitVec.extractLsb'_append_eq_left

@[simp] theorem opHigh1_append (high : BitVec 1) (rest : BitVec 31) :
    (fieldOp (high ++ rest)).extractLsb' 3 1 = high :=
  (extract_fieldOp _ (by decide)).trans BitVec.extractLsb'_append_eq_left

/-! ### The row that each `OP` selects (R86) -/

/-- The rows of R86 by their `OP`: six single values, then 011x and 1xxx. -/
theorem op_cases : ∀ op : BitVec 4, op = 0#4 ∨ op = 1#4 ∨ op = 2#4 ∨ op = 3#4 ∨ op = 4#4 ∨ op = 5#4 ∨
    op.extractLsb' 1 3 = 3#3 ∨ op.extractLsb' 3 1 = 1#1 := by decide

section
variable {w : CmdWord}

theorem decodeCmd_of_op0 (h : fieldOp w = 0#4) : decodeCmd w = .reservedOp0 (w.extractLsb' 0 28) := by
  simp [decodeCmd, h]

theorem decodeCmd_of_op1 (h : fieldOp w = 1#4) : decodeCmd w = .init (fieldInch w) (fieldOutch w) (fieldImm w) := by
  simp [decodeCmd, h]

theorem decodeCmd_of_op2 (h : fieldOp w = 2#4) : decodeCmd w = decodeSetp (fieldA w) (fieldImm w) := by
  simp [decodeCmd, h]

theorem decodeCmd_of_op3 (h : fieldOp w = 3#4) : decodeCmd w = decodeGetp (fieldA w) (fieldImm w) := by
  simp [decodeCmd, h]

theorem decodeCmd_of_op4 (h : fieldOp w = 4#4) : decodeCmd w = .render (fieldA w) (fieldImm w) := by
  simp [decodeCmd, h]

theorem decodeCmd_of_op5 (h : fieldOp w = 5#4) : decodeCmd w = .reservedOp5 (w.extractLsb' 0 28) := by
  simp [decodeCmd, h]

theorem decodeCmd_of_op6_7 (h : (fieldOp w).extractLsb' 1 3 = 3#3) :
    decodeCmd w = .reservedOp6_7 (w.extractLsb' 0 29) := by
  have hop : ∀ op : BitVec 4, op.extractLsb' 1 3 = 3#3 → op = 6#4 ∨ op = 7#4 := by decide
  rcases hop _ h with h | h <;> simp [decodeCmd, h]

theorem decodeCmd_of_op8_15 (h : (fieldOp w).extractLsb' 3 1 = 1#1) :
    decodeCmd w = .reservedOp8_15 (w.extractLsb' 0 31) := by
  have hop : ∀ op : BitVec 4, op.extractLsb' 3 1 = 1#1 →
      op ≠ 0#4 ∧ op ≠ 1#4 ∧ op ≠ 2#4 ∧ op ≠ 3#4 ∧ op ≠ 4#4 ∧ op ≠ 5#4 ∧ op.extractLsb' 1 3 ≠ 3#3 := by decide
  obtain ⟨h0, h1, h2, h3, h4, h5, h6_7⟩ := hop _ h
  simp only [decodeCmd, h0, h1, h2, h3, h4, h5, h6_7, if_false]

end

/-! ### SETP and GETP by their identifier (R85) -/

theorem unrecognisedId_ne : ∀ id : BitVec 4, unrecognisedId id = true → id ≠ 0#4 ∧ id ≠ 1#4 ∧ id ≠ 2#4 := by decide

theorem id_cases : ∀ id : BitVec 4, id = 0#4 ∨ id = 1#4 ∨ id = 2#4 ∨ unrecognisedId id = true := by decide

theorem decodeSetp_unrecognised {id : BitVec 4} (h : unrecognisedId id = true) (val : BitVec 24) :
    decodeSetp id val = .setpUnknown id val := by
  obtain ⟨h0, h1, h2⟩ := unrecognisedId_ne id h
  simp only [decodeSetp, h0, h1, h2, if_false]

theorem decodeGetp_unrecognised {id : BitVec 4} (h : unrecognisedId id = true) (ign : BitVec 24) :
    decodeGetp id ign = .getpUnknown id ign := by
  obtain ⟨h0, h1, h2⟩ := unrecognisedId_ne id h
  simp only [decodeGetp, h0, h1, h2, if_false]

/-- The instruction is well-formed and the code is its own. -/
def Instr.HasCode (i : Instr) (c : Code) : Prop := i.wf = true ∧ encode i = c

theorem decodeSetp_hasCode (id : BitVec 4) (val : BitVec 24) :
    (decodeSetp id val).HasCode (.cmd (2#4 ++ id ++ val)) := by
  rcases id_cases id with rfl | rfl | rfl | h
  · exact ⟨rfl, rfl⟩
  · exact ⟨rfl, rfl⟩
  · exact ⟨rfl, rfl⟩
  · rw [decodeSetp_unrecognised h]
    exact ⟨h, rfl⟩

theorem decodeGetp_hasCode (id : BitVec 4) (ign : BitVec 24) :
    (decodeGetp id ign).HasCode (.cmd (3#4 ++ id ++ ign)) := by
  rcases id_cases id with rfl | rfl | rfl | h
  · exact ⟨rfl, rfl⟩
  · exact ⟨rfl, rfl⟩
  · exact ⟨rfl, rfl⟩
  · rw [decodeGetp_unrecognised h]
    exact ⟨h, rfl⟩

/-! ### Words that are put together from their fields decode to those fields -/

theorem decodeCmd_init (inch outch : BitVec 2) (fs : BitVec 24) :
    decodeCmd (1#4 ++ inch ++ outch ++ fs) = .init inch outch fs := by
  simp [decodeCmd_of_op1]

theorem decodeCmd_setp (id : BitVec 4) (val : BitVec 24) : decodeCmd (2#4 ++ id ++ val) = decodeSetp id val := by
  simp [decodeCmd_of_op2]

theorem decodeCmd_getp (id : BitVec 4) (ign : BitVec 24) : decodeCmd (3#4 ++ id ++ ign) = decodeGetp id ign := by
  simp [decodeCmd_of_op3]

theorem decodeCmd_render (ign : BitVec 4) (nfr : BitVec 24) : decodeCmd (4#4 ++ ign ++ nfr) = .render ign nfr := by
  simp [decodeCmd_of_op4]

theorem decodeCmd_reservedOp0 (rest : BitVec 28) : decodeCmd (0#4 ++ rest) = .reservedOp0 rest :=
  (decodeCmd_of_op0 (fieldOp_append_rest ..)).trans (congrArg _ BitVec.extractLsb'_append_eq_right)

theorem decodeCmd_reservedOp5 (rest : BitVec 28) : decodeCmd (5#4 ++ rest) = .reservedOp5 rest :=
  (decodeCmd_of_op5 (fieldOp_append_rest ..)).trans (congrArg _ BitVec.extractLsb'_append_eq_right)

theorem decodeCmd_reservedOp6_7 (rest : BitVec 29) : decodeCmd (3#3 ++ rest) = .reservedOp6_7 rest :=
  (decodeCmd_of_op6_7 (opHigh3_append ..)).trans (congrArg _ BitVec.extractLsb'_append_eq_right)

theorem decodeCmd_reservedOp8_15 (rest : BitVec 31) : decodeCmd (1#1 ++ rest) = .reservedOp8_15 rest :=
  (decodeCmd_of_op8_15 (opHigh1_append ..)).trans (congrArg _ BitVec.extractLsb'_append_eq_right)

/-! ### A decoded instruction has the code it was decoded from -/

/-- Each row keeps every bit of the word: `OP` in the choice of the row, the others as operands (log 19). -/
theorem decodeCmd_hasCode (w : CmdWord) : (decodeCmd w).HasCode (.cmd w) := by
  rcases op_cases (fieldOp w) with h | h | h | h | h | h | h | h
  · rw [decodeCmd_of_op0 h]
    exact ⟨rfl, congrArg Code.cmd (h ▸ op_append_rest w)⟩
  · rw [decodeCmd_of_op1 h]
    exact ⟨rfl, congrArg Code.cmd (h ▸ op_append_channels_append_imm w)⟩
  · have hcode := decodeSetp_hasCode (fieldA w) (fieldImm w)
    rwa [← h, op_append_id_append_imm, ← decodeCmd_of_op2 h] at hcode
  · have hcode := decodeGetp_hasCode (fieldA w) (fieldImm w)
    rwa [← h, op_append_id_append_imm, ← decodeCmd_of_op3 h] at hcode
  · rw [decodeCmd_of_op4 h]
    exact ⟨rfl, congrArg Code.cmd (h ▸ op_append_id_append_imm w)⟩
  · rw [decodeCmd_of_op5 h]
    exact ⟨rfl, congrArg Code.cmd (h ▸ op_append_rest w)⟩
  · rw [decodeCmd_of_op6_7 h]
    exact ⟨rfl, congrArg Code.cmd (h ▸ opHigh3_append_rest w)⟩
  · rw [decodeCmd_of_op8_15 h]
    exact ⟨rfl, congrArg Code.cmd (h ▸ opHigh1_append_rest w)⟩

/-- An operation of the schedule has no operand to check. -/
theorem wf_of_encode_seq {i : Instr} {c : BitVec 5} (h : encode i = .seq c) : i.wf = true := by
  cases i with
  | setpUnknown => cases h
  | getpUnknown => cases h
  | _ => rfl

/-! ### The opcode table's row (R86, R87) -/

open Laws in
/-- The code of a well-formed command lies in the command's own row (the family EncodesItsRow, one lemma per row). -/
theorem tableRow_of_hasCode {i : Instr} {w : CmdWord} (h : i.HasCode (.cmd w)) : tableRow w = some i.mnemonic := by
  obtain ⟨hwf, hw⟩ := h
  have hrow : EncodesItsRow.Statement i → tableRow w = some i.mnemonic := fun hi => by
    have hcode := hi hwf
    rwa [hw] at hcode
  cases i with
  | init inch outch fs => exact hrow (EncodesItsRow.init inch outch fs)
  | setpTime val => exact hrow (EncodesItsRow.setpTime val)
  | setpDepth val => exact hrow (EncodesItsRow.setpDepth val)
  | setpMix val => exact hrow (EncodesItsRow.setpMix val)
  | setpUnknown id val => exact hrow (EncodesItsRow.setpUnknown id val)
  | getpTime ign => exact hrow (EncodesItsRow.getpTime ign)
  | getpDepth ign => exact hrow (EncodesItsRow.getpDepth ign)
  | getpMix ign => exact hrow (EncodesItsRow.getpMix ign)
  | getpUnknown id ign => exact hrow (EncodesItsRow.getpUnknown id ign)
  | render ign nfr => exact hrow (EncodesItsRow.render ign nfr)
  | reservedOp0 rest => exact hrow (EncodesItsRow.reservedOp0 rest)
  | reservedOp5 rest => exact hrow (EncodesItsRow.reservedOp5 rest)
  | reservedOp6_7 rest => exact hrow (EncodesItsRow.reservedOp6_7 rest)
  | reservedOp8_15 rest => exact hrow (EncodesItsRow.reservedOp8_15 rest)
  | _ => cases hw

/-- The top byte of a word is `OP` and `A` (R80). -/
theorem toNat_topByte (w : CmdWord) : w.toNat / 2 ^ 24 = (fieldOp w).toNat * 16 + (fieldA w).toNat := by
  have hw := w.isLt
  simp only [fieldOp, fieldA, toNat_field]
  omega

theorem decodeCmd_mnemonic (w : CmdWord) :
    (decodeCmd w).mnemonic = rowOfTop ((fieldOp w).toNat * 16 + (fieldA w).toNat) :=
  Option.some.inj ((tableRow_of_hasCode (decodeCmd_hasCode w)).symm.trans (tableRow_of_top (toNat_topByte w)))

/-- Only the rows of SETP and GETP look at `A`. -/
theorem rowOfTop_of_op : ∀ op a : BitVec 4, op ≠ 2#4 → op ≠ 3#4 →
    rowOfTop (op.toNat * 16 + a.toNat) = rowOfTop (op.toNat * 16) := by decide

/-! ### STEP codes (R89) -/

theorem exists_decodeSeq_of_used {c : BitVec 5} (h : c.toNat ≤ 14) : ∃ i, decodeSeq c = .ok i := by
  have hused := Machine.decodeSeq_used c h
  cases hdec : decodeSeq c with
  | ok i => exact ⟨i, rfl⟩
  | error e => simp [hdec, Except.toOption] at hused

/-! ### The obligations -/

open Machine

/-- Settles O1: the fields of an instruction's code are its operands, and `OP` selects its row again. -/
theorem decodeUndoesEncode : Obligations.DecodeUndoesEncode := by
  intro i hwf
  cases i with
  | init inch outch fs => exact congrArg Except.ok (decodeCmd_init inch outch fs)
  | setpTime val => exact congrArg Except.ok (decodeCmd_setp 0#4 val)
  | setpDepth val => exact congrArg Except.ok (decodeCmd_setp 1#4 val)
  | setpMix val => exact congrArg Except.ok (decodeCmd_setp 2#4 val)
  | setpUnknown id val => exact congrArg Except.ok ((decodeCmd_setp id val).trans (decodeSetp_unrecognised hwf val))
  | getpTime ign => exact congrArg Except.ok (decodeCmd_getp 0#4 ign)
  | getpDepth ign => exact congrArg Except.ok (decodeCmd_getp 1#4 ign)
  | getpMix ign => exact congrArg Except.ok (decodeCmd_getp 2#4 ign)
  | getpUnknown id ign => exact congrArg Except.ok ((decodeCmd_getp id ign).trans (decodeGetp_unrecognised hwf ign))
  | render ign nfr => exact congrArg Except.ok (decodeCmd_render ign nfr)
  | reservedOp0 rest => exact congrArg Except.ok (decodeCmd_reservedOp0 rest)
  | reservedOp5 rest => exact congrArg Except.ok (decodeCmd_reservedOp5 rest)
  | reservedOp6_7 rest => exact congrArg Except.ok (decodeCmd_reservedOp6_7 rest)
  | reservedOp8_15 rest => exact congrArg Except.ok (decodeCmd_reservedOp8_15 rest)
  | _ => rfl

/-- Settles O2: for a command word row by row, for a STEP code over the 15 operations. -/
theorem encodeUndoesDecode : Obligations.EncodeUndoesDecode := by
  rintro (w | c) i h
  · obtain rfl : decodeCmd w = i := Except.ok.inj h
    exact decodeCmd_hasCode w
  · have hcode : encode i = .seq c := encode_of_decodeSeq h
    exact ⟨wf_of_encode_seq hcode, hcode⟩

/-- Settles O3: a word is the code of the instruction it decodes to, so it lies in that instruction's row, and the row is a
function of the top byte. -/
theorem decodeTakesFirstTableRow : Obligations.DecodeTakesFirstTableRow := by
  refine ⟨fun w => tableRow_of_hasCode (decodeCmd_hasCode w), fun w w' hop ha => ?_, fun w w' hop h2 h3 => ?_⟩
  · rw [decodeCmd_mnemonic, hop, ha, ← decodeCmd_mnemonic]
  · rw [decodeCmd_mnemonic, decodeCmd_mnemonic, ← hop, rowOfTop_of_op _ _ h2 h3, rowOfTop_of_op _ _ h2 h3]

/-- Settles O4: the words are fixed, and the decoder computes. -/
theorem vectorWordsDecode : Obligations.VectorWordsDecode := by
  unfold Obligations.VectorWordsDecode
  decide

/-- Settles O5: the decoder has an entry for each code up to 14, and every other code falls through to the error. -/
theorem unusedStepCodesHaveNoOperation : Obligations.UnusedStepCodesHaveNoOperation :=
  fun _ => ⟨exists_decodeSeq_of_used, decodeSeq_unused⟩

/-- Settles O25: the meanings of GETP and RENDER do not use the operand that holds the ignored bits. -/
theorem ignoredBitsChangeNothing : Obligations.IgnoredBitsChangeNothing :=
  fun _ _ _ _ _ _ _ => ⟨rfl, rfl, rfl, rfl, rfl⟩

end Sys2Proof
end

section
/-! PROOFS. Family 40_fixed_point.md: saturation (O6), rounding toward zero (O7), the sample product (O8), the accumulator
(O9). -/

namespace Sys2Proof
namespace Machine

/-! ### Rounding toward zero (R102) -/

theorem rtz_of_nonneg {a : Int} (h : 0 ≤ a) (k : Nat) : rtz a k = a / 2 ^ k := if_pos h

theorem rtz_neg (a : Int) (k : Nat) : rtz (-a) k = -rtz a k := by
  rw [rtz_eq_tdiv, rtz_eq_tdiv, Int.neg_tdiv]

theorem rtz_mul_two_pow (a : Int) (k : Nat) : rtz (a * 2 ^ k) k = a := by
  rw [rtz_eq_tdiv, Int.mul_tdiv_cancel a (by positivity)]

theorem rtz_mono {a b : Int} (h : a ≤ b) (k : Nat) : rtz a k ≤ rtz b k := by
  rw [rtz_eq_tdiv, rtz_eq_tdiv]
  exact Int.tdiv_le_tdiv (by positivity) h

/-- Rounding toward zero is floor division of the magnitude: laws (a) and (d) are read off it. -/
theorem abs_rtz (a : Int) (k : Nat) : |rtz a k| = |a| / 2 ^ k := by
  have hnonneg : ∀ {c : Int}, 0 ≤ c → |rtz c k| = |c| / 2 ^ k := fun {c} hc => by
    rw [rtz_of_nonneg hc, abs_of_nonneg hc, abs_of_nonneg (Int.ediv_nonneg hc (by positivity))]
  rcases le_total 0 a with ha | ha
  · exact hnonneg ha
  · rw [← abs_neg, ← rtz_neg, hnonneg (by omega), abs_neg]

theorem abs_rtz_mul_two_pow_le (a : Int) (k : Nat) : |rtz a k| * 2 ^ k ≤ |a| := by
  rw [abs_rtz]
  exact Int.ediv_mul_le |a| (by positivity)

theorem rtz_eq_zero_iff (a : Int) (k : Nat) : rtz a k = 0 ↔ |a| < 2 ^ k := by
  have hpow : (0 : Int) < 2 ^ k := by positivity
  rw [← abs_eq_zero, abs_rtz]
  constructor
  · intro h
    simpa using Int.lt_mul_of_ediv_lt hpow (h.trans_lt one_pos)
  · exact Int.ediv_eq_zero_of_lt (abs_nonneg a)

/-! Law (f): a multiple of `2^k` passes through the rounding where the sum rounds in the same direction as `a`. -/

theorem rtz_add_of_nonneg {a b : Int} {k : Nat} (ha : 0 ≤ a) (hsum : 0 ≤ a + b * 2 ^ k) :
    rtz (a + b * 2 ^ k) k = rtz a k + b := by
  rw [rtz_of_nonneg ha, rtz_of_nonneg hsum, Int.add_mul_ediv_right a b (by positivity)]

theorem rtz_add_of_nonpos {a b : Int} {k : Nat} (ha : a ≤ 0) (hsum : a + b * 2 ^ k ≤ 0) :
    rtz (a + b * 2 ^ k) k = rtz a k + b := by
  have hneg : -(a + b * 2 ^ k) = -a + -b * 2 ^ k := by ring
  have hodd : rtz (-a + -b * 2 ^ k) k = rtz (-a) k + -b := rtz_add_of_nonneg (by omega) (by omega)
  rw [← hneg, rtz_neg, rtz_neg] at hodd
  omega

theorem rtz_add_of_dvd {a : Int} {k : Nat} (hdvd : (2 ^ k : Int) ∣ a) (b : Int) :
    rtz (a + b * 2 ^ k) k = rtz a k + b := by
  obtain ⟨c, rfl⟩ := hdvd
  rw [mul_comm, ← add_mul, rtz_mul_two_pow, rtz_mul_two_pow]

/-! ### Saturation (R101) -/

/-- A sample goes through `sat32` unchanged. -/
theorem sat32_toInt_self (a : Q) : sat32 a.toInt = a :=
  have ⟨hlow, hhigh⟩ := q_toInt_bounds a
  BitVec.eq_of_toInt_eq (sat32_of_range hlow hhigh)

/-- `QMIN` has no negation among the samples; where neither side is cut to it, `sat32` is odd. -/
theorem sat32_neg {v : Int} (hv : (sat32 v).toInt ≠ qMin) (hneg : (sat32 (-v)).toInt ≠ qMin) :
    (sat32 (-v)).toInt = -(sat32 v).toInt := by
  simp only [sat32_toInt, qMin] at *
  omega

/-! ### The sample product (R103) -/

/-- Every sample but `QMIN` has its negation among the samples. -/
theorem q_toInt_neg {a : Q} (h : a.toInt ≠ qMin) : (-a).toInt = -a.toInt :=
  BitVec.toInt_neg_of_ne_intMin fun hmin => h (by rw [hmin]; rfl)

theorem qmul_one (a : Q) : qmul a 16777216#32 = a := by
  have hone : (16777216#32).toInt = 2 ^ 24 := by decide
  rw [qmul, hone, rtz_mul_two_pow, sat32_toInt_self]

theorem qmul_of_small {a b : Q} (h : |a.toInt * b.toInt| < 2 ^ 24) : qmul a b = 0#32 := by
  rw [qmul, (rtz_eq_zero_iff _ 24).mpr h]
  rfl

theorem qmul_zero (a : Q) : qmul a 0#32 = 0#32 := qmul_of_small (by simp)

theorem qmul_neg {a : Q} (h : a.toInt ≠ qMin) (b : Q) : qmul (-a) b = sat32 (-rtz (a.toInt * b.toInt) 24) := by
  rw [qmul, q_toInt_neg h, neg_mul, rtz_neg]

end Machine

/-! ### The obligations -/

open Machine

/-- Settles O6: the three ranges of `sat32_toInt`. -/
theorem saturationCutsToRails : Obligations.SaturationCutsToRails := by
  intro v
  rw [sat32_toInt]
  refine ⟨fun hlow => ?_, fun hhigh => ?_, fun hlow hhigh => ?_⟩ <;> omega

/-- Settles O7: truncating division is odd, so each law is one about floor division of what is not negative; the
counterexample to the unconditional law (f) is a sum whose sign is not that of its first term. -/
theorem roundingTowardZeroLaws : Obligations.RoundingTowardZeroLaws := by
  refine ⟨rtz_eq_tdiv, abs_rtz_mul_two_pow_le, rtz_neg, rtz_mul_two_pow, rtz_eq_zero_iff, fun a b k h => rtz_mono h k,
    ?lawF, by decide⟩
  case lawF =>
    rintro a b k (⟨ha, hsum⟩ | ⟨ha, hsum⟩ | hdvd)
    · exact rtz_add_of_nonneg ha hsum
    · exact rtz_add_of_nonpos ha hsum
    · exact rtz_add_of_dvd hdvd b

/-- Settles O8: the laws of `rtz` and `sat32` at the product of two samples. -/
theorem sampleProductLaws : Obligations.SampleProductLaws := by
  refine ⟨qmul_one, qmul_zero, fun a b => qmul_of_small, by decide, fun a b ha hclip hclipNeg => ?odd⟩
  case odd =>
    rw [qmul_neg ha] at hclipNeg ⊢
    exact sat32_neg hclip hclipNeg

/-- Settles O9: each operation writes its one register, and the register holds a sum of 72 bits unchanged
(`toInt_ofInt72`). -/
theorem accumulatorOperationsAreExact : Obligations.AccumulatorOperationsAreExact :=
  fun _ _ _ _ _ _ => ⟨rfl, rfl, toInt_ofInt72, toInt_ofInt72, toInt_ofInt72, rfl, rfl, rfl, rfl,
    rfl, rfl, rfl, rfl, fun _ => rfl⟩

end Sys2Proof
end

section
/-! PROOFS. Family 41_delay_line.md: DL.RD (O13), DL.WR (O14), the delay law (O15), the pre-delay line (O33). -/

namespace Sys2Proof
namespace Machine

/-! ### What a successful DL.WR leaves (R122) -/

@[simp] theorem stored_cfg (l : LineId) (v : Q) (s : State) : (stored l v s).cfg = s.cfg := by simp [stored]

@[simp] theorem stored_mem (l : LineId) (v : Q) (s : State) :
    (stored l v s).mem = s.mem.write (writeAddr l s) v := by simp [stored]

theorem storesWord_stored {s : State} (hwf : s.mem.wf = true) (l : LineId) (v : Q) :
    StoresWord s (stored l v s) (writeAddr l s) v := by
  refine ⟨?_, fun b hb => read_stored hwf hb⟩
  rw [stored_mem, Memory.read_write hwf, if_pos rfl]

theorem stored_frame (l : LineId) (v : Q) (s : State) :
    stored l v s = { s with mem := (stored l v s).mem, pcur := (stored l v s).pcur,
                            ccur := (stored l v s).ccur, acur := (stored l v s).acur } := by
  cases l <;> rfl

theorem getD_set_self {α : Type} {l : List α} {i : Nat} (hi : i < l.length) (v d : α) : (l.set i v).getD i d = v := by
  simp [List.getD_eq_getElem?_getD, hi]

theorem lineCursor_stored_self {s : State} {l : LineId} (hl : s.hasLine l) (v : Q) :
    lineCursor (stored l v s) l = nextCursor l s := by
  cases l with
  | pre => rfl
  | comb i => exact getD_set_self hl.2 ..
  | ap j => exact getD_set_self hl.2 ..

theorem lineCursor_setCursor_ne {l l' : LineId} (hne : l' ≠ l) (c : Nat) (s : State) :
    lineCursor (setCursor l c s) l' = lineCursor s l' := by
  cases l with
  | pre =>
    cases l' with
    | pre => exact absurd rfl hne
    | comb k => rfl
    | ap k => rfl
  | comb i =>
    cases l' with
    | pre => rfl
    | comb k => exact getD_set_ne _ (fun hki => hne (congrArg _ hki)) ..
    | ap k => rfl
  | ap j =>
    cases l' with
    | pre => rfl
    | comb k => rfl
    | ap k => exact getD_set_ne _ (fun hkj => hne (congrArg _ hkj)) ..

theorem lineCursor_congr {s t : State} (hpre : t.pcur = s.pcur) (hcomb : t.ccur = s.ccur) (hap : t.acur = s.acur)
    (l : LineId) : lineCursor t l = lineCursor s l := by
  cases l <;> simp only [lineCursor, hpre, hcomb, hap]

theorem lineCursor_stored_ne {l l' : LineId} (hne : l' ≠ l) (v : Q) (s : State) :
    lineCursor (stored l v s) l' = lineCursor s l' :=
  (lineCursor_setCursor_ne hne ..).trans (lineCursor_congr rfl rfl rfl l')

theorem hasLine_stored {s : State} {l : LineId} (hl : s.hasLine l) (v : Q) : (stored l v s).hasLine l := by
  cases l with
  | pre => trivial
  | comb i => exact ⟨hl.1, by simpa [stored, setCursor] using hl.2⟩
  | ap j => exact ⟨hl.1, by simpa [stored, setCursor] using hl.2⟩

/-! ### The address of DL.RD (R121) -/

theorem readAddr_eq_behind {l : LineId} {k : Nat} {s : State} (hk1 : 1 ≤ k) (hk : k ≤ lineCap s.cfg l)
    (hcur : s.cursorOk l) : readAddr l k s =
      lineBase s.cfg l + if k ≤ lineCursor s l then lineCursor s l - k else lineCursor s l + lineCap s.cfg l - k := by
  unfold readAddr
  split
  next hle =>
    rw [Int.emod_eq_of_lt (by omega) (by omega)]
    omega
  next hgt =>
    rw [← Int.add_emod_right, Int.emod_eq_of_lt (by omega) (by omega)]
    omega

/-- Offset 0 would be the cursor itself, where the next value goes. -/
theorem readAddr_zero {l : LineId} {s : State} (hcur : s.cursorOk l) : readAddr l 0 s = writeAddr l s := by
  rw [readAddr, Int.natCast_zero, Int.sub_zero, Int.emod_eq_of_lt (by omega) (by omega)]
  rfl

/-- Every other offset below the capacity is a word that the next DL.WR leaves alone. -/
theorem readAddr_ne_writeAddr {l : LineId} {k : Nat} {s : State} (hk1 : 1 ≤ k) (hk : k < lineCap s.cfg l)
    (hcur : s.cursorOk l) : readAddr l k s ≠ writeAddr l s := by
  rw [readAddr_eq_behind hk1 hk.le hcur, writeAddr]
  split <;> omega

/-- A write moves every word one place further behind the cursor (R124). -/
theorem readAddr_succ_stored {s : State} {l : LineId} (hl : s.hasLine l) (k : Nat) (v : Q) :
    readAddr l (k + 1) (stored l v s) = readAddr l k s := by
  have hmod : ((lineCursor s l + 1 : Int) % lineCap s.cfg l - (k + 1)) % lineCap s.cfg l =
      ((lineCursor s l : Int) - k) % lineCap s.cfg l := by
    rw [Int.emod_sub_emod, Int.add_sub_add_right]
  simp only [readAddr, stored_cfg, lineCursor_stored_self hl, nextCursor, Nat.cast_add, Nat.cast_one,
    Int.natCast_emod, hmod]

/-! ### A line that can be used -/

/-- What DL.RD and DL.WR on a line rely on: the line exists, its cursor is legal and its region lies in DMEM
(R65, R120); the memory is in canonical form. -/
structure LineUsable (l : LineId) (s : State) : Prop where
  line : s.hasLine l
  canonical : s.mem.wf = true
  cursor : s.cursorOk l
  region : lineBase s.cfg l + lineCap s.cfg l ≤ s.cfg.memWords

section
variable {l : LineId} {s : State}

theorem LineUsable.stored (h : LineUsable l s) (v : Q) : LineUsable l (stored l v s) where
  line := hasLine_stored h.line v
  canonical := by
    rw [stored_mem]
    exact Memory.wf_write h.canonical ..
  cursor := by
    rw [State.cursorOk, lineCursor_stored_self h.line, stored_cfg]
    exact nextCursor_lt l s (Nat.zero_lt_of_lt h.cursor)
  region := by simpa using h.region

theorem dlWr_of_region (hcur : s.cursorOk l) (hregion : lineBase s.cfg l + lineCap s.cfg l ≤ s.cfg.memWords) (v : Q) :
    dlWr l v s = .ok (stored l v s) :=
  dlWr_ok ((writeAddr_lt l s hcur).2.trans_le hregion)

theorem dlRd_of_region (hcur : s.cursorOk l) (hregion : lineBase s.cfg l + lineCap s.cfg l ≤ s.cfg.memWords) (k : Nat) :
    dlRd l k s = .ok (s.mem.read (readAddr l k s)) :=
  dlRd_ok ((readAddr_lt l k s (Nat.zero_lt_of_lt hcur)).2.trans_le hregion)

/-- DL.RD at offset 1 sees the value just written (R123). -/
theorem LineUsable.read_one_stored (h : LineUsable l s) (v : Q) :
    (Machine.stored l v s).mem.read (readAddr l 1 (Machine.stored l v s)) = v := by
  rw [readAddr_succ_stored h.line, readAddr_zero h.cursor]
  exact (storesWord_stored h.canonical l v).1

/-- At every other offset it sees what stood one place nearer to the cursor. -/
theorem LineUsable.read_succ_stored (h : LineUsable l s) (v : Q) {k : Nat} (hk1 : 1 ≤ k) (hk : k < lineCap s.cfg l) :
    (Machine.stored l v s).mem.read (readAddr l (k + 1) (Machine.stored l v s)) = s.mem.read (readAddr l k s) := by
  rw [readAddr_succ_stored h.line]
  exact (storesWord_stored h.canonical l v).2 _ (readAddr_ne_writeAddr hk1 hk h.cursor)

/-! ### The delay law (R124) -/

/-- The line holds the values `past`, the newest first, and zeros behind them. -/
def LineHolds (l : LineId) (past : List Q) (s : State) : Prop :=
  ∀ k, k < lineCap s.cfg l → s.mem.read (readAddr l (k + 1) s) = past.getD k 0

theorem LineHolds.stored {past : List Q} (hheld : LineHolds l past s) (h : LineUsable l s) (v : Q) :
    LineHolds l (v :: past) (stored l v s) := by
  intro k hk
  rw [stored_cfg] at hk
  cases k with
  | zero => exact h.read_one_stored v
  | succ k => exact (h.read_succ_stored v (by omega) hk).trans (hheld k (by omega))

theorem lineHolds_nil_of_zeros (hcur : s.cursorOk l)
    (hzero : ∀ a, lineBase s.cfg l ≤ a → a < lineBase s.cfg l + lineCap s.cfg l → s.mem.read a = 0) :
    LineHolds l [] s := fun k _ =>
  have ⟨hlo, hhi⟩ := readAddr_lt l (k + 1) s (Nat.zero_lt_of_lt hcur)
  hzero _ hlo hhi

/-- Successive writes go in front of what the line held, the last one first. -/
theorem dlWrAll_holds (ws : List Q) {past : List Q} (h : LineUsable l s) (hheld : LineHolds l past s) :
    ∃ t, dlWrAll l ws s = .ok t ∧ t.cfg = s.cfg ∧ LineUsable l t ∧ LineHolds l (ws.reverse ++ past) t := by
  induction ws generalizing s past with
  | nil => exact ⟨s, rfl, rfl, h, hheld⟩
  | cons v ws ih =>
    obtain ⟨t, hrun, hcfg, husable, hholds⟩ := ih (h.stored v) (hheld.stored h v)
    refine ⟨t, ?_, hcfg.trans (stored_cfg l v s), husable, by simpa using hholds⟩
    rw [dlWrAll, dlWr_of_region h.cursor h.region v]
    exact hrun

end

theorem getD_reverse_pred (ws : List Q) {k : Nat} (hk : 1 ≤ k) :
    ws.reverse.getD (k - 1) 0 = if k ≤ ws.length then ws.getD (ws.length - k) 0 else 0 := by
  split
  next hle =>
    rw [List.getD_reverse _ (by omega), show ws.length - 1 - (k - 1) = ws.length - k by omega]
  next hgt => exact List.getD_eq_default _ _ (by rw [List.length_reverse]; omega)

/-! ### PDLY (R123) -/

theorem lineUsable_pre {s : State} (hmem : s.cfg.reqWords ≤ s.cfg.memWords) (hcur : s.cursorOk .pre)
    (hwf : s.mem.wf = true) : LineUsable .pre s :=
  ⟨trivial, hwf, hcur, (lineEnd_le s.cfg .pre).trans hmem⟩

/-- PDLY where the pre-delay line can be used: one DL.WR, then the read in the memory it leaves. -/
theorem execPdly_eq {s s1 : State} (h : LineUsable .pre s) (hs1 : s1 = stored .pre s.wires.t2 s) :
    execPdly s = .next (goto Seq.comb 0 (setWires
      { s.wires with p := s1.mem.read (readAddr .pre s.cfg.preD s1), r := [] } s1)) := by
  subst hs1
  have hafter := h.stored s.wires.t2
  rw [execPdly, dlWr_of_region h.cursor h.region]
  simp only [dlRd_of_region hafter.cursor hafter.region]

end Machine

/-! ### The obligations -/

open Machine

/-- Settles O13: the remainder is the difference itself, or that plus the capacity where it is negative. -/
theorem delayReadAddressesBehindCursor : Obligations.DelayReadAddressesBehindCursor := by
  intro l k s hk1 hk hcur hregion
  rw [dlRd_of_region hcur hregion, readAddr_eq_behind hk1 hk hcur]

/-- Settles O14: DL.WR goes on to the state `stored`, whose word, cursors and frame are one lemma each. -/
theorem delayWriteStoresAndAdvances : Obligations.DelayWriteStoresAndAdvances := by
  intro l v s hl hwf hcur hregion
  have husable : LineUsable l s := ⟨hl, hwf, hcur, hregion⟩
  exact ⟨stored l v s, dlWr_of_region hcur hregion v, storesWord_stored hwf l v, lineCursor_stored_self hl v,
    (husable.stored v).canonical, fun _ hne => lineCursor_stored_ne hne v s, stored_frame l v s⟩

/-- Settles O15: a line of zeros holds no values yet, each write goes in front of the values held, and DL.RD at offset
`k` reads the `k`-th newest of them. -/
theorem delayLaw : Obligations.DelayLaw := by
  intro l s ws hl hwf hcur hregion hzero
  obtain ⟨t, hrun, hcfg, husable, hholds⟩ :=
    dlWrAll_holds ws ⟨hl, hwf, hcur, hregion⟩ (lineHolds_nil_of_zeros hcur hzero)
  refine ⟨t, hrun, fun k hk1 hk => ?_⟩
  have hread := hholds (k - 1) (by rw [hcfg]; omega)
  rw [Nat.sub_add_cancel hk1, List.append_nil, getD_reverse_pred ws hk1] at hread
  rw [dlRd_of_region husable.cursor husable.region, hread]

/-- Settles O33: the read is in the memory that the write leaves, and offset 1 is the word just written. -/
theorem preDelayWritesThenReads : Obligations.PreDelayWritesThenReads := by
  intro s _ hmem hcur hwf
  have husable := lineUsable_pre hmem hcur hwf
  refine ⟨_, execPdly_eq husable rfl, storesWord_stored hwf .pre _, (husable.stored _).canonical, rfl, ?read, ?own, rfl⟩
  case read => exact congrArg _ (Nat.zero_add _)
  case own =>
    intro hone
    simpa [hone] using husable.read_one_stored s.wires.t2

end Sys2Proof
end

section
/-! PROOFS. Family 42_filters.md: the difference equations of the two-pole filter (O10) and of the one-pole filter
(O11), the two tone filters (O32). -/

namespace Sys2Proof
namespace Machine

/-! ### Tap registers (R21, R22) -/

/-- The tap register exists: a comb tap has its line, the tone taps are always there. -/
def State.hasTap (s : State) : Tap → Prop
  | .dz i => i < s.dz.length
  | _ => True

theorem readTap_setTap_self {s : State} {t : Tap} (h : s.hasTap t) (v : QA) : readTap (setTap t v s) t = v := by
  cases t with
  | dz i => exact getD_set_self h v 0
  | _ => rfl

theorem readTap_setTap_ne {t t' : Tap} (h : t' ≠ t) (v : QA) (s : State) :
    readTap (setTap t v s) t' = readTap s t' := by
  cases t <;> cases t'
  case dz.dz i i' => exact getD_set_ne s.dz (fun hi => h (congrArg Tap.dz hi)) v 0
  case lpz1.lpz1 | lpz2.lpz2 | hpz1.hpz1 | hpz2.hpz2 => exact absurd rfl h
  all_goals rfl

@[simp] theorem hasTap_setTap (s : State) (t t' : Tap) (v : QA) : (setTap t v s).hasTap t' ↔ s.hasTap t' := by
  cases t' with
  | dz i => cases t <;> simp [State.hasTap, setTap]
  | _ => exact Iff.rfl

@[simp] theorem hasTap_setAcc (s : State) (t : Tap) (v : QA) : (setAcc v s).hasTap t ↔ s.hasTap t := by
  cases t <;> exact Iff.rfl

/-! ### What a filter step leaves in its taps (R131, R132): the sums fit the register, so nothing is lost (R107) -/

theorem toInt_two_products (b x a y : Q) :
    (BitVec.ofInt 72 (b.toInt * x.toInt - a.toInt * y.toInt)).toInt = b.toInt * x.toInt - a.toInt * y.toInt := by
  have hbx := product_bounds b x
  have hay := product_bounds a y
  exact toInt_ofInt72 (by omega) (by omega)

theorem toInt_tap_and_two_products {z : QA} (hz : QA.within z 63) (b x a y : Q) :
    (BitVec.ofInt 72 (z.toInt + b.toInt * x.toInt - a.toInt * y.toInt)).toInt =
      z.toInt + b.toInt * x.toInt - a.toInt * y.toInt := by
  have hbx := product_bounds b x
  have hay := product_bounds a y
  obtain ⟨hlow, hhigh⟩ := hz
  exact toInt_ofInt72 (by omega) (by omega)

section
variable {s : State}

theorem iir1_tap {z : Tap} (hz : s.hasTap z) (co : Coef1) (x : Q) :
    (readTap (iir1 co z x s).2 z).toInt = co.b1.toInt * x.toInt - co.a1.toInt * (iir1 co z x s).1.toInt := by
  rw [iir1_eq]
  dsimp only
  rw [readTap_setTap_self ((hasTap_setAcc ..).mpr hz), toInt_two_products]

@[simp] theorem hasTap_iir1 (co : Coef1) (z t : Tap) (x : Q) : (iir1 co z x s).2.hasTap t ↔ s.hasTap t := by
  simp [iir1_eq]

variable {z1 z2 : Tap}

/-- The first tap comes from the old second one. -/
theorem biq_tap1 (hne : z1 ≠ z2) (hz1 : s.hasTap z1) (hbound : QA.within (readTap s z2) 63) (co : Coef2) (x : Q) :
    (readTap (biq co z1 z2 x s).2 z1).toInt =
      (readTap s z2).toInt + co.b1.toInt * x.toInt - co.a1.toInt * (biq co z1 z2 x s).1.toInt := by
  rw [biq_eq]
  dsimp only
  rw [readTap_setTap_ne hne, readTap_setAcc, readTap_setTap_self hz1, toInt_tap_and_two_products hbound]

theorem biq_tap2 (hz2 : s.hasTap z2) (co : Coef2) (z1 : Tap) (x : Q) :
    (readTap (biq co z1 z2 x s).2 z2).toInt =
      co.b2.toInt * x.toInt - co.a2.toInt * (biq co z1 z2 x s).1.toInt := by
  rw [biq_eq]
  dsimp only
  rw [readTap_setTap_self (by simpa using hz2), toInt_two_products]

/-- BIQ computes R132's pseudocode exactly on two tap registers inside their R107 bounds. -/
theorem biq_exact (hne : z1 ≠ z2) (hz1 : s.hasTap z1) (hz2 : s.hasTap z2) (hbound1 : QA.within (readTap s z1) 64)
    (hbound2 : QA.within (readTap s z2) 63) (co : Coef2) (x : Q) :
    (biq co z1 z2 x s).1 = sat32 (rtz ((readTap s z1).toInt + co.b0.toInt * x.toInt) 24) ∧
      (readTap (biq co z1 z2 x s).2 z1).toInt =
        (readTap s z2).toInt + co.b1.toInt * x.toInt - co.a1.toInt * (biq co z1 z2 x s).1.toInt ∧
      (readTap (biq co z1 z2 x s).2 z2).toInt =
        co.b2.toInt * x.toInt - co.a2.toInt * (biq co z1 z2 x s).1.toInt :=
  ⟨biq_out co z1 z2 x s hbound1, biq_tap1 hne hz1 hbound2 co x, biq_tap2 hz2 co z1 x⟩

@[simp] theorem hasTap_biq (co : Coef2) (z1 z2 t : Tap) (x : Q) : (biq co z1 z2 x s).2.hasTap t ↔ s.hasTap t := by
  simp [biq_eq]

end

/-! ### The tone filters: BIQ changes its own taps and the accumulator alone (R133) -/

theorem biq_lp_frame (co : Coef2) (x : Q) (s : State) : (biq co .lpz1 .lpz2 x s).2 =
    { s with acc := (biq co .lpz1 .lpz2 x s).2.acc, lpz1 := (biq co .lpz1 .lpz2 x s).2.lpz1,
             lpz2 := (biq co .lpz1 .lpz2 x s).2.lpz2 } := by
  rw [biq_eq]
  rfl

theorem biq_hp_frame (co : Coef2) (x : Q) (s : State) : (biq co .hpz1 .hpz2 x s).2 =
    { s with acc := (biq co .hpz1 .hpz2 x s).2.acc, hpz1 := (biq co .hpz1 .hpz2 x s).2.hpz1,
             hpz2 := (biq co .hpz1 .hpz2 x s).2.hpz2 } := by
  rw [biq_eq]
  rfl

theorem biq_keepsMemory (co : Coef2) (z1 z2 : Tap) (x : Q) (s : State) : KeepsMemory s (biq co z1 z2 x s).2 := by
  intro a
  simp [biq_eq]

/-- The sequencer and the wires are not memory. -/
theorem KeepsMemory.stage {s u : State} (h : KeepsMemory s u) (code : BitVec 5) (i : BitVec 6) (w : Wires) :
    KeepsMemory s (goto code i (setWires w u)) := h

theorem exec_biqLp (s : State) : exec .biqLp s =
    .next (goto Seq.biqHp 0 (setWires { s.wires with t1 := (biq s.cfg.lp .lpz1 .lpz2 s.wires.s s).1 }
      (biq s.cfg.lp .lpz1 .lpz2 s.wires.s s).2)) := rfl

theorem exec_biqHp (s : State) : exec .biqHp s =
    .next (goto Seq.pdly 0 (setWires { s.wires with t2 := (biq s.cfg.hp .hpz1 .hpz2 s.wires.t1 s).1 }
      (biq s.cfg.hp .hpz1 .hpz2 s.wires.t1 s).2)) := rfl

/-! ### Earlier samples of a sequence -/

@[simp] theorem past_now (f : Nat → Q) (k : Nat) : past f k 0 = (f k).toInt := rfl

@[simp] theorem past_before_start (f : Nat → Q) (d : Nat) : past f 0 (d + 1) = 0 := rfl

@[simp] theorem past_succ_succ (f : Nat → Q) (k d : Nat) : past f (k + 1) (d + 1) = past f k d := by
  simp [past]

/-- An earlier sample is a sample, so its product with a coefficient is bounded as any other (R107). -/
theorem past_product_bounds (c : Q) (f : Nat → Q) (k d : Nat) :
    -(2 ^ 62) ≤ c.toInt * past f k d ∧ c.toInt * past f k d ≤ 2 ^ 62 := by
  unfold past
  split
  · exact product_bounds c (f (k - d))
  · simp

/-! ### The one-pole filter over a sequence (R131) -/

section
variable (co : Coef1) {z : Tap} (x : Nat → Q) {s : State}

theorem hasTap_iir1State (hz : s.hasTap z) (k : Nat) : (iir1State co z x s k).hasTap z := by
  induction k with
  | zero => exact hz
  | succ k ih => simpa [iir1State] using ih

/-- The tap holds the part of the difference equation that belongs to earlier samples. -/
theorem iir1State_tap (hz : s.hasTap z) (hzero : readTap s z = 0) (k : Nat) :
    (readTap (iir1State co z x s k) z).toInt =
      co.b1.toInt * past x k 1 - co.a1.toInt * past (iir1Output co z x s) k 1 := by
  cases k with
  | zero => simp [iir1State, hzero]
  | succ k =>
    rw [iir1State, iir1_tap (hasTap_iir1State co x hz k)]
    simp [iir1Output]

theorem iir1State_within (hz : s.hasTap z) (hzero : readTap s z = 0) (k : Nat) :
    QA.within (readTap (iir1State co z x s k) z) 64 := by
  have htap := iir1State_tap co x hz hzero k
  have hx := past_product_bounds co.b1 x k 1
  have hy := past_product_bounds co.a1 (iir1Output co z x s) k 1
  constructor <;> omega

/-- The law of R131 for any tap register. -/
theorem iir1Output_eq (hz : s.hasTap z) (hzero : readTap s z = 0) (k : Nat) : iir1Output co z x s k =
    sat32 (rtz (co.b0.toInt * past x k 0 + co.b1.toInt * past x k 1
      - co.a1.toInt * past (iir1Output co z x s) k 1) 24) := by
  rw [iir1Output, iir1_out _ _ _ _ (iir1State_within co x hz hzero k), iir1State_tap co x hz hzero k, past_now]
  congr 2
  ring

end

/-! ### The two-pole filter over a sequence (R132) -/

section
variable (co : Coef2) {z1 z2 : Tap} (x : Nat → Q) {s : State}

theorem hasTap_biqState {t : Tap} (ht : s.hasTap t) (k : Nat) : (biqState co z1 z2 x s k).hasTap t := by
  induction k with
  | zero => exact ht
  | succ k ih => simpa [biqState] using ih

/-- The second tap holds what the sample before contributes to the output after the next. -/
theorem biqState_tap2 (hz2 : s.hasTap z2) (hzero2 : readTap s z2 = 0) (k : Nat) :
    (readTap (biqState co z1 z2 x s k) z2).toInt =
      co.b2.toInt * past x k 1 - co.a2.toInt * past (biqOutput co z1 z2 x s) k 1 := by
  cases k with
  | zero => simp [biqState, hzero2]
  | succ k =>
    rw [biqState, biq_tap2 (hasTap_biqState co x hz2 k)]
    simp [biqOutput]

theorem biqState_within2 (hz2 : s.hasTap z2) (hzero2 : readTap s z2 = 0) (k : Nat) :
    QA.within (readTap (biqState co z1 z2 x s k) z2) 63 := by
  have htap := biqState_tap2 co (z1 := z1) x hz2 hzero2 k
  have hx := past_product_bounds co.b2 x k 1
  have hy := past_product_bounds co.a2 (biqOutput co z1 z2 x s) k 1
  constructor <;> omega

/-- The first tap holds the part of the difference equation that belongs to earlier samples. -/
theorem biqState_tap1 (hne : z1 ≠ z2) (hz1 : s.hasTap z1) (hz2 : s.hasTap z2) (hzero1 : readTap s z1 = 0)
    (hzero2 : readTap s z2 = 0) (k : Nat) :
    (readTap (biqState co z1 z2 x s k) z1).toInt =
      co.b1.toInt * past x k 1 + co.b2.toInt * past x k 2
        - co.a1.toInt * past (biqOutput co z1 z2 x s) k 1 - co.a2.toInt * past (biqOutput co z1 z2 x s) k 2 := by
  cases k with
  | zero => simp [biqState, hzero1]
  | succ k =>
    rw [biqState, biq_tap1 hne (hasTap_biqState co x hz1 k) (biqState_within2 co x hz2 hzero2 k),
      biqState_tap2 co x hz2 hzero2 k]
    simp only [past_succ_succ, past_now, biqOutput]
    ring

theorem biqState_within1 (hne : z1 ≠ z2) (hz1 : s.hasTap z1) (hz2 : s.hasTap z2) (hzero1 : readTap s z1 = 0)
    (hzero2 : readTap s z2 = 0) (k : Nat) : QA.within (readTap (biqState co z1 z2 x s k) z1) 64 := by
  have htap := biqState_tap1 co x hne hz1 hz2 hzero1 hzero2 k
  have hx1 := past_product_bounds co.b1 x k 1
  have hx2 := past_product_bounds co.b2 x k 2
  have hy1 := past_product_bounds co.a1 (biqOutput co z1 z2 x s) k 1
  have hy2 := past_product_bounds co.a2 (biqOutput co z1 z2 x s) k 2
  constructor <;> omega

/-- The law of R132 for any two tap registers. -/
theorem biqOutput_eq (hne : z1 ≠ z2) (hz1 : s.hasTap z1) (hz2 : s.hasTap z2) (hzero1 : readTap s z1 = 0)
    (hzero2 : readTap s z2 = 0) (k : Nat) : biqOutput co z1 z2 x s k =
      sat32 (rtz (co.b0.toInt * past x k 0 + co.b1.toInt * past x k 1 + co.b2.toInt * past x k 2
        - co.a1.toInt * past (biqOutput co z1 z2 x s) k 1 - co.a2.toInt * past (biqOutput co z1 z2 x s) k 2) 24) := by
  rw [biqOutput, biq_out _ _ _ _ _ (biqState_within1 co x hne hz1 hz2 hzero1 hzero2 k),
    biqState_tap1 co x hne hz1 hz2 hzero1 hzero2 k, past_now]
  congr 2
  ring

end

end Machine

/-! ### The obligations -/

open Machine

/-- Settles O10: the first tap holds the difference equation's earlier samples (`biqState_tap1`), so one rounding of the
first tap and the new product gives the output. -/
theorem biquadMeetsDifferenceEquation : Obligations.BiquadMeetsDifferenceEquation := by
  intro co x s z1 z2 hpair hzero1 hzero2
  obtain ⟨hne, hz1, hz2⟩ : z1 ≠ z2 ∧ s.hasTap z1 ∧ s.hasTap z2 := by
    rcases hpair with ⟨rfl, rfl⟩ | ⟨rfl, rfl⟩ <;> exact ⟨by decide, trivial, trivial⟩
  exact biqOutput_eq co x hne hz1 hz2 hzero1 hzero2

/-- Settles O11: the same with the one tap of a comb line. -/
theorem onePoleMeetsDifferenceEquation : Obligations.OnePoleMeetsDifferenceEquation :=
  fun co x s i hi hzero => iir1Output_eq co x (z := .dz i) (s := s) hi hzero

/-- Settles O32: each tone filter is one BIQ, exact on its two taps (`biq_exact`), and BIQ keeps everything else. -/
theorem biquadsFollowTheirRule : Obligations.BiquadsFollowTheirRule := by
  refine ⟨fun s hz1 hz2 => ?lowpass, fun s hz1 hz2 => ?highpass⟩
  case lowpass =>
    have hexec := exec_biqLp s
    have hkept := biq_lp_frame s.cfg.lp s.wires.s s
    have hmem := biq_keepsMemory s.cfg.lp .lpz1 .lpz2 s.wires.s s
    obtain ⟨hout, htap1, htap2⟩ := biq_exact (s := s) (z1 := .lpz1) (z2 := .lpz2) (by decide) trivial trivial hz1 hz2
      s.cfg.lp s.wires.s
    -- The clauses look at BIQ's output and end state alone; its definition need not be unfolded again.
    generalize biq s.cfg.lp .lpz1 .lpz2 s.wires.s s = r at hexec hkept hmem hout htap1 htap2
    have hframe := congrArg (fun u => goto Seq.biqHp 0 (setWires { s.wires with t1 := r.1 } u)) hkept
    exact ⟨_, hexec, hout, htap1, htap2, hframe, hmem.stage _ _ _⟩
  case highpass =>
    have hexec := exec_biqHp s
    have hkept := biq_hp_frame s.cfg.hp s.wires.t1 s
    have hmem := biq_keepsMemory s.cfg.hp .hpz1 .hpz2 s.wires.t1 s
    obtain ⟨hout, htap1, htap2⟩ := biq_exact (s := s) (z1 := .hpz1) (z2 := .hpz2) (by decide) trivial trivial hz1 hz2
      s.cfg.hp s.wires.t1
    generalize biq s.cfg.hp .hpz1 .hpz2 s.wires.t1 s = r at hexec hkept hmem hout htap1 htap2
    have hframe := congrArg (fun u => goto Seq.pdly 0 (setWires { s.wires with t2 := r.1 } u)) hkept
    exact ⟨_, hexec, hout, htap1, htap2, hframe, hmem.stage _ _ _⟩

end Sys2Proof
end

section
/-! PROOFS. Family 43_comb_bank.md: the gain scheduler (O29), one comb line (O34), the normalisation (O35). -/

namespace Sys2Proof
namespace Machine

/-! ### The gain scheduler (R144, R145) -/

/-- R144's index without the lower clamp, which a natural number does not need. -/
theorem gidx_eq (c : Cfg) (t : BitVec 10) : gidx c t = min (c.lutSteps - 1) (t.toNat * c.lutSteps / 1024) := by
  rw [gidx, Nat.zero_max]

/-! ### One comb line (R141, R142) -/

theorem QA.within.mono {t : QA} {j k : Nat} (h : QA.within t j) (hjk : j ≤ k) : QA.within t k := by
  obtain ⟨hlow, hhigh⟩ := h
  have hpow : (2 ^ j : Int) ≤ 2 ^ k := pow_le_pow_right₀ (by decide) hjk
  exact ⟨(neg_le_neg hpow).trans hlow, hhigh.trans hpow⟩

/-- What COMB reads from line `IDX`, before it writes there. -/
def combRead (s : State) : Q := s.mem.read (readAddr (.comb s.idx.toNat) (combCfg s.cfg s.idx.toNat).delay s)

/-- COMB's damping: the damped sample and the state after. -/
def combDamped (s : State) : Q × State := iir1 (combCfg s.cfg s.idx.toNat).damp (.dz s.idx.toNat) (combRead s) s

/-- COMB's feedback: the value for the line and the state in front of its DL.WR. -/
def combFed (s : State) : Q × State :=
  combMix s.wires.p (combDamped s).1 (s.fbg.getD s.idx.toNat 0) (combDamped s).2

/-- A line whose region INIT has checked to lie in DMEM (R193). -/
theorem lineUsable_of_storage {l : LineId} {s : State} (hmem : s.cfg.reqWords ≤ s.cfg.memWords) (hl : s.hasLine l)
    (hcur : s.cursorOk l) (hwf : s.mem.wf = true) : LineUsable l s :=
  ⟨hl, hwf, hcur, (lineEnd_le s.cfg l).trans hmem⟩

theorem combDamped_out {s : State} (h : QA.within (s.dz.getD s.idx.toNat 0) 63) : (combDamped s).1 =
    sat32 (rtz ((s.dz.getD s.idx.toNat 0).toInt +
      (combCfg s.cfg s.idx.toNat).damp.b0.toInt * (combRead s).toInt) 24) :=
  iir1_out _ (.dz s.idx.toNat) _ s (h.mono (by decide))

theorem combFed_out (s : State) : (combFed s).1 =
    sat32 (rtz (s.wires.p.toInt * 2 ^ 24 + (combDamped s).1.toInt * (s.fbg.getD s.idx.toNat 0).toInt) 24) := by
  rw [combFed, combMix_eq]

/-- In front of its DL.WR, COMB has written the accumulator and the tap of its own line, and nothing else; the tap is
exact. -/
theorem combFed_state {s : State} (htap : s.hasTap (.dz s.idx.toNat)) :
    ∃ a z, (combFed s).2 = setAcc a (setTap (.dz s.idx.toNat) z s) ∧
      z.toInt = (combCfg s.cfg s.idx.toNat).damp.b1.toInt * (combRead s).toInt -
        (combCfg s.cfg s.idx.toNat).damp.a1.toInt * (combDamped s).1.toInt := by
  obtain ⟨z, -, hdamped⟩ : ∃ z, QA.within z 63 ∧ (combDamped s).2 = setAcc z (setTap (.dz s.idx.toNat) z s) :=
    iir1_state ..
  obtain ⟨a, hfed⟩ : ∃ a, (combFed s).2 = setAcc a (combDamped s).2 := combMix_state ..
  refine ⟨a, z, by rw [hfed, hdamped, setAcc_setAcc], ?_⟩
  have hexact := iir1_tap htap (combCfg s.cfg s.idx.toNat).damp (combRead s)
  rwa [← combDamped, hdamped, readTap_setAcc, readTap_setTap_self htap] at hexact

/-- COMB where its line can be used: one DL.RD, the filter, the feedback, one DL.WR. -/
theorem execComb_eq {s : State} (hline : hasComb s s.idx.toNat) (h : LineUsable (.comb s.idx.toNat) s) :
    execComb s = .next (nextLine Seq.comb Seq.cnorm s.cfg.n (setWires { s.wires with r := s.wires.r ++ [combRead s] }
      (stored (.comb s.idx.toNat) (combFed s).1 (combFed s).2))) := by
  have ⟨_, _, hreg, _⟩ := hline
  obtain ⟨a, z, hfed, -⟩ := combFed_state (s := s) hreg
  have hrd : dlRd (.comb s.idx.toNat) (combCfg s.cfg s.idx.toNat).delay s = .ok (combRead s) :=
    dlRd_of_region h.cursor h.region _
  have hwr : dlWr (.comb s.idx.toNat) (combFed s).1 (combFed s).2 =
      .ok (stored (.comb s.idx.toNat) (combFed s).1 (combFed s).2) := by
    rw [hfed]
    exact dlWr_of_region (l := .comb s.idx.toNat) (s := setAcc a (setTap (.dz s.idx.toNat) z s)) h.cursor h.region _
  rw [combFed, combDamped] at hwr
  simp only [execComb, if_pos hline, hrd, hwr]
  rfl

/-- The next position as R142 and R152 say it, for a line index that `IDX` can hold (R27). -/
theorem LineMove.position {here after code : BitVec 5} {count : Nat} {idx k : BitVec 6} (hcount : count ≤ 64)
    (h : LineMove here after count idx code k) :
    (idx.toNat + 1 < count → code = here ∧ k.toNat = idx.toNat + 1) ∧
      (idx.toNat + 1 = count → code = after ∧ k = 0) := by
  cases h with
  | next hlt => exact ⟨fun _ => ⟨rfl, toNat_idx_succ hlt hcount⟩, fun heq => absurd heq hlt.ne⟩
  | last hle => exact ⟨fun hlt => absurd hlt hle.not_gt, fun _ => ⟨rfl, rfl⟩⟩

/-! ### The normalisation (R143) -/

/-- A sum of samples grows by at most `2^31` with each. -/
theorem sum_toInt_bounds (rs : List Q) :
    -(rs.length * 2 ^ 31 : Int) ≤ (rs.map (·.toInt)).sum ∧ (rs.map (·.toInt)).sum ≤ rs.length * 2 ^ 31 := by
  induction rs with
  | nil => simp
  | cons r rs ih =>
    obtain ⟨hlow, hhigh⟩ := q_toInt_bounds r
    simp only [List.map_cons, List.sum_cons, List.length_cons, Nat.cast_add, Nat.cast_one]
    constructor <;> omega

/-- Up to 64 line outputs, scaled, stay far inside the accumulator (R107). -/
theorem scaled_sum_bounds {rs : List Q} (hlen : rs.length ≤ 64) (norm : Q) :
    -(2 ^ 68) ≤ (rs.map (·.toInt)).sum * norm.toInt ∧ (rs.map (·.toInt)).sum * norm.toInt ≤ 2 ^ 68 := by
  obtain ⟨hlow, hhigh⟩ := sum_toInt_bounds rs
  obtain ⟨hnlow, hnhigh⟩ := q_toInt_bounds norm
  have hsum : |(rs.map (·.toInt)).sum| ≤ 2 ^ 37 := abs_le.mpr ⟨by omega, by omega⟩
  have hnorm : |norm.toInt| ≤ 2 ^ 31 := abs_le.mpr ⟨by omega, by omega⟩
  refine abs_le.mp ?_
  calc |(rs.map (·.toInt)).sum * norm.toInt|
      = |(rs.map (·.toInt)).sum| * |norm.toInt| := abs_mul ..
    _ ≤ 2 ^ 37 * 2 ^ 31 := mul_le_mul hsum hnorm (abs_nonneg _) (by positivity)
    _ = 2 ^ 68 := by norm_num

/-- CNORM's accumulation leaves the exact scaled sum in the accumulator. -/
theorem sumLines_accClr_acc {rs : List Q} (hlen : rs.length ≤ 64) (norm : Q) (s : State) :
    (sumLines norm rs (accClr s)).acc.toInt = (rs.map (·.toInt)).sum * norm.toInt := by
  obtain ⟨hlow, hhigh⟩ := scaled_sum_bounds hlen norm
  rw [sumLines_eq, setAcc_acc, accClr_acc, qa_zero_toInt, Int.zero_add]
  exact toInt_ofInt72 (by omega) (by omega)

/-- It changes nothing but the accumulator. -/
theorem sumLines_accClr_frame (norm : Q) (rs : List Q) (s : State) :
    sumLines norm rs (accClr s) = { s with acc := (sumLines norm rs (accClr s)).acc } := by
  rw [sumLines_eq]
  rfl

end Machine

/-! ### The obligations -/

open Machine

/-- Settles O29: GSCHED latches `gainRow`, which is a row of the table with one gain in `[0, 1)` for each line. -/
theorem gainSchedulerSelectsTableRow : Obligations.GainSchedulerSelectsTableRow := by
  intro s hwf
  refine ⟨goto Seq.blkpro 0 (gschedule s), rfl, ?row, rfl, fun _ => rfl⟩
  rw [← gidx_eq]
  exact ⟨gidx_lt hwf s.pTime, (gainRow_wf hwf s.pTime).1, fun i hi => ⟨rfl, gainRow_bounds hwf s.pTime hi⟩⟩

/-- Settles O34: COMB ends in one explicit state (`execComb_eq`, `combFed_state`), a DL.WR after the tap of its own line was
written; each clause is a lemma about that state's parts. -/
theorem combLineFollowsItsRule : Obligations.CombLineFollowsItsRule := by
  rintro s i rfl hi ⟨⟨_, hcount, _⟩, _⟩ hmem hdz hccur hfbg hcur hwf htap
  have hcursor : s.idx.toNat < s.ccur.length := hccur ▸ hi
  have hreg : s.idx.toNat < s.dz.length := hdz ▸ hi
  have husable := lineUsable_of_storage hmem (l := .comb s.idx.toNat) ⟨hi, hcursor⟩ hcur hwf
  have hexec := execComb_eq ⟨hi, hcursor, hreg, hfbg ▸ hi⟩ husable
  obtain ⟨a, z, hfed, hz⟩ := combFed_state (s := s) hreg
  rw [hfed] at hexec
  obtain ⟨code, k, hmove, hnext⟩ := nextLine_eq_goto Seq.comb Seq.cnorm s.cfg.n (idx := s.idx)
    (s := setWires { s.wires with r := s.wires.r ++ [combRead s] }
      (stored (.comb s.idx.toNat) (combFed s).1 (setAcc a (setTap (.dz s.idx.toNat) z s)))) (by simp)
  obtain ⟨hon, hlast⟩ := hmove.position hcount
  refine ⟨_, combRead s, (combDamped s).1, (combFed s).1, hexec.trans (congrArg _ hnext), rfl, combDamped_out htap,
    combFed_out s, ?tap, fun k hk => getD_set_ne _ hk .., List.length_set, ?store, ?canonical, ?cursor, rfl, hon, hlast,
    rfl⟩
  case tap => exact (congrArg BitVec.toInt (getD_set_self hreg z 0)).trans hz
  case store => exact storesWord_stored (s := setAcc a (setTap (.dz s.idx.toNat) z s)) hwf (.comb s.idx.toNat) _
  case canonical => exact Memory.wf_write hwf ..
  case cursor => rw [← lineCap_comb s.cfg hi]; rfl

/-- Settles O35: the accumulator holds the exact scaled sum (`sumLines_accClr_acc`), so ACC.OUT rounds it once. -/
theorem normalisationScalesTheExactSum : Obligations.NormalisationScalesTheExactSum := by
  intro s hlen
  have hsum := sumLines_accClr_acc hlen s.cfg.combNorm s
  have hframe := sumLines_accClr_frame s.cfg.combNorm s.wires.r s
  refine ⟨_, rfl, congrArg (fun v => sat32 (rtz v 24)) hsum, ?frame, ?memory⟩
  case frame =>
    exact congrArg (fun u => goto Seq.ap 0 (setWires
      { s.wires with v := accOut 24 (sumLines s.cfg.combNorm s.wires.r (accClr s)) } u)) hframe
  case memory => exact fun a => congrArg (fun u => u.mem.read a) hframe

end Sys2Proof
end

section
/-! PROOFS. Family 44_allpass_chain.md: one all-pass line (O36). -/

namespace Sys2Proof
namespace Machine

/-! ### One all-pass line (R151, R152) -/

/-- What AP reads from line `IDX`, before it writes there. -/
def apRead (s : State) : Q := s.mem.read (readAddr (.ap s.idx.toNat) (apCfg s.cfg s.idx.toNat).delay s)

/-- AP's output and the state after its rounding. -/
def apPassed (s : State) : Q × State := apOut (apRead s) (apCfg s.cfg s.idx.toNat).gain s.wires.v s

/-- AP's write-back: the value for the line, from the rounded output, and the state in front of its DL.WR. -/
def apFed (s : State) : Q × State :=
  apBack s.wires.v (apCfg s.cfg s.idx.toNat).gain (apPassed s).1 (apPassed s).2

theorem apPassed_out (s : State) : (apPassed s).1 = sat32 (rtz ((apRead s).toInt * 2 ^ 24 -
    (apCfg s.cfg s.idx.toNat).gain.toInt * s.wires.v.toInt) 24) := by
  rw [apPassed, apOut_eq]

theorem apFed_out (s : State) : (apFed s).1 = sat32 (rtz (s.wires.v.toInt * 2 ^ 24 +
    (apCfg s.cfg s.idx.toNat).gain.toInt * (apPassed s).1.toInt) 24) := by
  rw [apFed, apBack_eq]

/-- In front of its DL.WR, AP has written the accumulator and nothing else. -/
theorem apFed_state (s : State) : ∃ a, (apFed s).2 = setAcc a s := by
  rw [apFed, apBack_eq, apPassed, apOut_eq]
  exact ⟨_, setAcc_setAcc ..⟩

/-- AP where its line can be used: one DL.RD, the output, the write-back from it, one DL.WR. -/
theorem execAp_eq {s : State} (h : LineUsable (.ap s.idx.toNat) s) :
    execAp s = .next (nextLine Seq.ap Seq.xfadeL s.cfg.m (setWires { s.wires with v := (apPassed s).1 }
      (stored (.ap s.idx.toNat) (apFed s).1 (apFed s).2))) := by
  have hline : hasAp s s.idx.toNat := h.line
  have hrd : dlRd (.ap s.idx.toNat) (apCfg s.cfg s.idx.toNat).delay s = .ok (apRead s) :=
    dlRd_of_region h.cursor h.region _
  have hwr : dlWr (.ap s.idx.toNat) (apFed s).1 (apFed s).2 =
      .ok (stored (.ap s.idx.toNat) (apFed s).1 (apFed s).2) := by
    obtain ⟨a, hfed⟩ := apFed_state s
    rw [hfed]
    exact dlWr_of_region (l := .ap s.idx.toNat) (s := setAcc a s) h.cursor h.region _
  rw [apFed, apPassed] at hwr
  simp only [execAp, if_pos hline, hrd, hwr]
  rfl

end Machine

/-! ### The obligation -/

open Machine

/-- Settles O36: AP ends in one explicit state (`execAp_eq`, `apFed_state`), a DL.WR after its two roundings through the
accumulator; each clause is a lemma about that state's parts. -/
theorem allPassLineFollowsItsRule : Obligations.AllPassLineFollowsItsRule := by
  rintro s j rfl hj ⟨⟨_, _, _, hcount⟩, _⟩ hmem hacur hcur hwf
  have hexec := execAp_eq (lineUsable_of_storage hmem ⟨hj, hacur ▸ hj⟩ hcur hwf)
  obtain ⟨a, hfed⟩ := apFed_state s
  rw [hfed] at hexec
  obtain ⟨code, k, hmove, hnext⟩ := nextLine_eq_goto Seq.ap Seq.xfadeL s.cfg.m (idx := s.idx)
    (s := setWires { s.wires with v := (apPassed s).1 }
      (stored (.ap s.idx.toNat) (apFed s).1 (setAcc a s))) (by simp)
  obtain ⟨hon, hlast⟩ := hmove.position hcount
  refine ⟨_, apRead s, (apPassed s).1, (apFed s).1, hexec.trans (congrArg _ hnext), rfl, apPassed_out s, apFed_out s,
    ?store, ?canonical, ?cursor, rfl, hon, hlast, rfl⟩
  case store => exact storesWord_stored (s := setAcc a s) hwf (.ap s.idx.toNat) _
  case canonical => exact Memory.wf_write hwf ..
  case cursor => rw [← lineCap_ap s.cfg hj]; rfl

end Sys2Proof
end

section
/-! PROOFS. Family 45_output_stage.md: the send stage (O30), the crossfade (O37, O38), the soft clip (O39, O40). -/

namespace Sys2Proof
namespace Machine

/-! ### Values by their magnitude (R101, R102) -/

theorem sat32_of_abs_lt {v : Int} (h : |v| < 2 ^ 31) : (sat32 v).toInt = v :=
  have ⟨hlow, hhigh⟩ := abs_lt.mp h
  sat32_of_range (by omega) (by omega)

theorem toInt_ofInt32_of_abs_le {v : Int} (h : |v| ≤ 2 ^ 24) : (BitVec.ofInt 32 v).toInt = v :=
  have ⟨hlow, hhigh⟩ := abs_le.mp h
  toInt_ofInt32 (by omega) (by omega)

/-- Scaling by a factor of magnitude at most 1 and rounding toward zero never grows a value. -/
theorem abs_rtz_mul_le {a : Int} (ha : |a| ≤ 2 ^ 24) (b : Int) : |rtz (a * b) 24| ≤ |b| := by
  rw [abs_rtz, abs_mul]
  refine Int.ediv_le_of_le_mul (by positivity) ?_
  rw [mul_comm]
  exact mul_le_mul_of_nonneg_left ha (abs_nonneg b)

theorem sat32_product_of_abs_le {a b : Int} (ha : |a| ≤ 2 ^ 24) (hb : |b| ≤ 2 ^ 24) :
    (sat32 (rtz (a * b) 24)).toInt = rtz (a * b) 24 :=
  sat32_of_abs_lt (((abs_rtz_mul_le ha b).trans hb).trans_lt (by decide))

/-! ### Send (R160) -/

/-- SEND's two products leave the exact scaled sum in the accumulator. -/
theorem toInt_sendSum (l r g : Q) :
    (BitVec.ofInt 72 (l.toInt * g.toInt + r.toInt * g.toInt)).toInt = (l.toInt + r.toInt) * g.toInt := by
  obtain ⟨hllow, hlhigh⟩ := product_bounds l g
  obtain ⟨hrlow, hrhigh⟩ := product_bounds r g
  rw [add_mul]
  exact toInt_ofInt72 (by omega) (by omega)

/-- SEND with a frame offered, as one explicit end state. -/
theorem exec_send_cons {s : State} {f : Frame} {rest : List Frame} (h : s.frameIn = f :: rest) :
    ∃ a, exec .send s = .next (goto Seq.biqLp 0 (setWires
      { s.wires with xL := f.l, xR := f.r, s := sat32 (rtz ((f.l.toInt + f.r.toInt) * s.sendg.toInt) 25) }
      { setAcc a s with frameIn := rest })) := by
  simp only [exec, execSend, h, accMac_accMac_accClr, accOut_setAcc, toInt_sendSum]
  exact ⟨_, rfl⟩

/-- A gain below `ONE` keeps the mean of two samples inside `Q`. -/
theorem send_range {l r : Q} {g : Int} (hlow : 0 ≤ g) (hhigh : g ≤ 1023 * 2 ^ 14) :
    |rtz ((l.toInt + r.toInt) * g) 25| < 2 ^ 31 := by
  obtain ⟨hllow, hlhigh⟩ := q_toInt_bounds l
  obtain ⟨hrlow, hrhigh⟩ := q_toInt_bounds r
  have hsum : |l.toInt + r.toInt| ≤ 2 ^ 32 := abs_le.mpr ⟨by omega, by omega⟩
  have hgain : |g| ≤ 1023 * 2 ^ 14 := abs_le.mpr ⟨by omega, hhigh⟩
  rw [abs_rtz]
  refine Int.ediv_lt_of_lt_mul (by positivity) ?_
  calc |(l.toInt + r.toInt) * g|
      = |l.toInt + r.toInt| * |g| := abs_mul ..
    _ ≤ 2 ^ 32 * (1023 * 2 ^ 14) := mul_le_mul hsum hgain (abs_nonneg _) (by positivity)
    _ < 2 ^ 31 * 2 ^ 25 := by norm_num

/-! ### Crossfade (R161, R162) -/

/-- A convex combination with weights in units of `2^-k`, rounded toward zero, stays between its operands: a multiple of
`2^k` passes through the rounding, which is monotone. -/
theorem rtz_convex_between {d v : Int} {k : Nat} (hd : 0 ≤ d) (hv : 0 ≤ v) (hsum : d + v = 2 ^ k) (x w : Int) :
    min x w ≤ rtz (d * x + v * w) k ∧ rtz (d * x + v * w) k ≤ max x w := by
  have hweights (c : Int) : d * c + v * c = c * 2 ^ k := by rw [← hsum]; ring
  constructor
  · rw [← rtz_mul_two_pow (min x w) k, ← hweights]
    exact rtz_mono (add_le_add (mul_le_mul_of_nonneg_left (min_le_left x w) hd)
      (mul_le_mul_of_nonneg_left (min_le_right x w) hv)) k
  · rw [← rtz_mul_two_pow (max x w) k, ← hweights]
    exact rtz_mono (add_le_add (mul_le_mul_of_nonneg_left (le_max_left x w) hd)
      (mul_le_mul_of_nonneg_left (le_max_right x w) hv)) k

theorem xfade_between {s : State} (hlow : 0 ≤ s.wetw.toInt) (hhigh : s.wetw.toInt ≤ 2 ^ 24)
    (hdry : s.dryw.toInt = 2 ^ 24 - s.wetw.toInt) (x w : Q) :
    min x.toInt w.toInt ≤ (xfade x w s).1.toInt ∧ (xfade x w s).1.toInt ≤ max x.toInt w.toInt := by
  have hbetween := rtz_convex_between (k := 24) (by omega : 0 ≤ s.dryw.toInt) hlow (by omega) x.toInt w.toInt
  have hx := q_toInt_bounds x
  have hw := q_toInt_bounds w
  rw [xfade_eq, sat32_of_range (by omega) (by omega)]
  exact hbetween

theorem xfade_dry {s : State} (hwet : s.wetw.toInt = 0) (hdry : s.dryw.toInt = 2 ^ 24) (x w : Q) :
    (xfade x w s).1 = x := by
  rw [xfade_eq, hwet, hdry, zero_mul, add_zero, mul_comm, rtz_mul_two_pow, sat32_toInt_self]

theorem xfade_wet {s : State} (hwet : s.wetw.toInt = 2 ^ 24) (hdry : s.dryw.toInt = 0) (x w : Q) :
    (xfade x w s).1 = w := by
  rw [xfade_eq, hwet, hdry, zero_mul, zero_add, mul_comm, rtz_mul_two_pow, sat32_toInt_self]

/-! ### Soft clip (R163, R164)

`softClip` in three parts: the drive into `[-ONE, ONE]`, the cubic shape of the drive, the post-scale. -/

/-- `u` of R163: the pre-scaled sample, clamped. -/
def clipDrive (c : Cfg) (m : Q) : Int := clamp (sat32 (rtz (c.scPre.toInt * m.toInt) 24)).toInt (-oneRaw) oneRaw

/-- `c3` of R163: the third of the drive's cube, each product rounded. -/
def clipCubic (u : Int) : Int := rtz (rtz (rtz (u * u) 24 * u) 24 * 5592405) 24

/-- `sh` of R163. -/
def clipShape (u : Int) : Int := u - clipCubic u

theorem softClip_eq (c : Cfg) (m : Q) :
    softClip c m = sat32 (rtz (c.scPost.toInt * clipShape (clipDrive c m)) 24) := rfl

theorem abs_clipDrive_le (c : Cfg) (m : Q) : |clipDrive c m| ≤ 2 ^ 24 := by
  simp only [clipDrive, clamp, oneRaw]
  exact abs_le.mpr ⟨by omega, by omega⟩

theorem clipDrive_zero (c : Cfg) : clipDrive c 0 = 0 := by
  have hzero : (0 : Q).toInt = 0 := rfl
  rw [clipDrive, hzero, mul_zero]
  decide

/-- Saturation and clamping are both symmetric about 0 inside the clamp's range. -/
theorem clipDrive_neg (c : Cfg) {m : Q} (h : m.toInt ≠ qMin) : clipDrive c (-m) = -clipDrive c m := by
  simp only [clipDrive, q_toInt_neg h, mul_neg, rtz_neg, sat32_toInt, clamp, oneRaw]
  omega

theorem abs_square_le {u : Int} (hu : |u| ≤ 2 ^ 24) : |rtz (u * u) 24| ≤ 2 ^ 24 := (abs_rtz_mul_le hu u).trans hu

theorem abs_cube_le {u : Int} (hu : |u| ≤ 2 ^ 24) : |rtz (rtz (u * u) 24 * u) 24| ≤ |u| :=
  abs_rtz_mul_le (abs_square_le hu) u

theorem abs_clipCubic_le {u : Int} (hu : |u| ≤ 2 ^ 24) : |clipCubic u| ≤ |u| := by
  rw [clipCubic, mul_comm]
  exact (abs_rtz_mul_le (by decide) _).trans (abs_cube_le hu)

theorem clipCubic_nonneg {u : Int} (hu : 0 ≤ u) : 0 ≤ clipCubic u := by
  have hrtz {a : Int} (ha : 0 ≤ a) : 0 ≤ rtz a 24 := by
    rw [rtz_of_nonneg ha]
    positivity
  exact hrtz (mul_nonneg (hrtz (mul_nonneg (hrtz (mul_nonneg hu hu)) hu)) (by decide))

theorem clipShape_neg (u : Int) : clipShape (-u) = -clipShape u := by
  simp only [clipShape, clipCubic, mul_neg, rtz_neg, neg_mul]
  ring

/-- R164(a): the cubic has the sign of the drive, and at full drive it is not 0. -/
theorem clipShape_range {u : Int} (hlow : 0 ≤ u) (hhigh : u ≤ 2 ^ 24) : 0 ≤ clipShape u ∧ clipShape u < 2 ^ 24 := by
  have hcubic := clipCubic_nonneg hlow
  have hle := abs_clipCubic_le (abs_le.mpr ⟨by omega, hhigh⟩ : |u| ≤ 2 ^ 24)
  rw [abs_of_nonneg hcubic, abs_of_nonneg hlow] at hle
  rcases hhigh.eq_or_lt with rfl | hlt
  · decide
  · unfold clipShape
    omega

theorem abs_clipShape_lt {u : Int} (hu : |u| ≤ 2 ^ 24) : |clipShape u| < 2 ^ 24 := by
  obtain ⟨hlow, hhigh⟩ := abs_le.mp hu
  rcases le_total 0 u with hpos | hneg
  · obtain ⟨hnonneg, hlt⟩ := clipShape_range hpos hhigh
    rwa [abs_of_nonneg hnonneg]
  · obtain ⟨hnonneg, hlt⟩ := clipShape_range (u := -u) (by omega) (by omega)
    rw [clipShape_neg] at hnonneg hlt
    rwa [← abs_neg, abs_of_nonneg hnonneg]

/-- The post-scale of something strictly inside `(-ONE, ONE)`. -/
theorem abs_postScale_lt {p sh : Int} (hp : 0 < p) (hsh : |sh| < 2 ^ 24) : |rtz (p * sh) 24| < p := by
  rw [abs_rtz, abs_mul, abs_of_pos hp]
  exact Int.ediv_lt_of_lt_mul (by positivity) (mul_lt_mul_of_pos_left hsh hp)

/-- R163's last saturation cuts nothing off where the post-scale is positive (R8(g)). -/
theorem softClip_toInt {c : Cfg} (hpost : 0 < c.scPost.toInt) (m : Q) :
    (softClip c m).toInt = rtz (c.scPost.toInt * clipShape (clipDrive c m)) 24 := by
  have hlt := abs_postScale_lt hpost (abs_clipShape_lt (abs_clipDrive_le c m))
  have ⟨_, hmax⟩ := q_toInt_bounds c.scPost
  rw [softClip_eq, sat32_of_abs_lt (hlt.trans (by omega))]

/-! The machine's SCLIP keeps every intermediate value in a 32-bit register: none leaves it. -/

/-- SCLIP (R163) is the integer function, and changes the accumulator only. -/
theorem sclip_eq (m : Q) (s : State) : ∃ a, sclip m s = (softClip s.cfg m, setAcc a s) := by
  have hu := abs_clipDrive_le s.cfg m
  have hthird : third.toInt = 5592405 := by decide
  have hdrive := toInt_ofInt32_of_abs_le hu
  have hsquare := sat32_product_of_abs_le hu hu
  have hcube := sat32_product_of_abs_le (abs_square_le hu) hu
  have hcubic := sat32_product_of_abs_le ((abs_cube_le hu).trans hu) (b := 5592405) (by decide)
  have hshape := toInt_ofInt32_of_abs_le (abs_clipShape_lt hu).le
  obtain ⟨a, ha⟩ := sclip_state m s
  refine ⟨a, Prod.ext ?out ha⟩
  case out =>
    rw [softClip_eq, ← hshape, clipShape, clipCubic, ← hcubic, ← hcube, ← hsquare]
    rw [clipDrive] at hdrive ⊢
    simp only [sclip, roundedProduct_eq, hthird, hdrive]

end Machine

/-! ### The obligations -/

open Machine

/-- Settles O30: the accumulator holds the exact scaled sum (`exec_send_cons`), whose rounded mean fits a sample
(`send_range`). -/
theorem sendScalesTheMeanOfTheFrame : Obligations.SendScalesTheMeanOfTheFrame := by
  intro s f rest hframe
  obtain ⟨a, hexec⟩ := exec_send_cons hframe
  exact ⟨_, hexec, rfl, fun hlow hhigh => sat32_of_abs_lt (send_range hlow hhigh), rfl, fun _ => rfl⟩

/-- Settles O37: XFADE gives R161's value and changes the accumulator alone (`xfade_eq`). -/
theorem crossfadesFollowTheirRule : Obligations.CrossfadesFollowTheirRule := by
  refine ⟨fun s => ?left, fun s => ?right⟩
  case left =>
    have hexec : exec .xfadeL s = execXfadeL s := rfl
    rw [execXfadeL, xfade_eq] at hexec
    exact ⟨_, hexec, rfl, rfl, fun _ => rfl⟩
  case right =>
    have hexec : exec .xfadeR s = execXfadeR s := rfl
    rw [execXfadeR, xfade_eq] at hexec
    exact ⟨_, hexec, rfl, rfl, fun _ => rfl⟩

/-- Settles O38: the crossfade is a convex combination (`xfade_between`), at either end with one weight 0. -/
theorem crossfadeBoundariesAreExact : Obligations.CrossfadeBoundariesAreExact := by
  refine ⟨by decide, by decide, by decide, by decide, fun s x w hlow hhigh hdry => ?_⟩
  exact ⟨xfade_between hlow hhigh hdry x w, fun hwet => xfade_dry hwet (by omega) x w,
    fun hwet => xfade_wet hwet (by omega) x w⟩

/-- Settles O39: SCLIP gives the integer function's value and changes the accumulator alone (`sclip_eq`). -/
theorem softClipsFollowTheirRule : Obligations.SoftClipsFollowTheirRule := by
  refine ⟨fun s => ?left, fun s => ?right⟩
  case left =>
    have hexec : exec .sclipL s = execSclipL s := rfl
    obtain ⟨a, hclip⟩ := sclip_eq s.wires.mL s
    rw [execSclipL, hclip] at hexec
    exact ⟨_, hexec, rfl, rfl, fun _ => rfl⟩
  case right =>
    have hexec : exec .sclipR s = execSclipR s := rfl
    obtain ⟨a, hclip⟩ := sclip_eq s.wires.mR s
    rw [execSclipR, hclip] at hexec
    exact ⟨_, hexec, rfl, rfl, fun _ => rfl⟩

/-- Settles O40: the shape is strictly inside `(-ONE, ONE)` (`abs_clipShape_lt`), and drive, shape and rounding are each
odd. -/
theorem softClipIsBoundedAndOdd : Obligations.SoftClipIsBoundedAndOdd := by
  intro c m hpost
  refine ⟨?bounded, ?zero, fun hm => ?odd⟩
  case bounded =>
    rw [softClip_toInt hpost]
    exact abs_postScale_lt hpost (abs_clipShape_lt (abs_clipDrive_le c m))
  case zero =>
    have hshape : clipShape 0 = 0 := by decide
    rw [softClip_eq, clipDrive_zero, hshape, mul_zero]
    decide
  case odd =>
    rw [softClip_toInt hpost, softClip_toInt hpost, clipDrive_neg c hm, clipShape_neg, mul_neg, rtz_neg]

end Sys2Proof
end

section
/-! PROOFS. Family 46_commands.md, the commands: INIT (O16), SETP (O19), GETP (O20, O21), RENDER (O24). -/

namespace Sys2Proof
namespace Machine

/-! ### INIT (R171) -/

/-- INIT succeeds when none of its three checks fails. -/
theorem initFailure_eq_none {c : Cfg} {fs : BitVec 24} {inch outch : BitVec 2} (hfs : fs.toNat = c.fsHz)
    (hin : inch.toNat = 2) (hout : outch.toNat = 2) (hmem : c.reqWords ≤ c.memWords) :
    initFailure c fs inch outch = none := by
  have hgeometry : ¬ (operandChannels inch ≠ 2 ∨ operandChannels outch ≠ 2) := by
    simp [operandChannels, hin, hout]
  have hrate : ¬ operandFs fs ≠ c.fsHz := not_not.mpr hfs
  rw [initFailure, if_neg hrate, if_neg hgeometry, if_neg (Nat.not_lt.mpr hmem)]

theorem execInit_of_success {s : State} {fs : BitVec 24} {inch outch : BitVec 2}
    (h : initFailure s.cfg fs inch outch = none) :
    execInit inch outch fs s = .next (respond Status.ok 0 { clearEngine s with mode := .ready }) := by
  rw [execInit, h]

/-- Time 0 selects the first row of the gain table (R144). -/
theorem gainRow_zero (c : Cfg) : gainRow c 0 = c.glut.getD 0 [] := by
  have hindex : gidx c 0 = 0 := by simp [gidx]
  rw [gainRow, hindex]

/-- The wet and the dry weight of a legal mix (R34, R171, R176). -/
theorem weights_toInt {mix : Int} (h : -1000 ≤ mix ∧ mix ≤ 1000) :
    (wetWeight mix).toInt = ((mix + 1000) * 2 ^ 24) / 2000 ∧
      (dryWeight (wetWeight mix)).toInt = 2 ^ 24 - (wetWeight mix).toInt :=
  ⟨wetWeight_toInt h, dryWeight_toInt (wetWeight_bounds h)⟩

/-! ### SETP and GETP (R173, R174) -/

theorem clampParam_toNat (v : BitVec 24) : ((clampParam v).toNat : Int) = clamp v.toInt 0 1023 := by
  have hrange : 0 ≤ clamp v.toInt 0 1023 ∧ clamp v.toInt 0 1023 ≤ 1023 := by
    unfold clamp
    omega
  rw [clampParam, operandRaw, BitVec.toNat_ofInt]
  omega

theorem clampMix_toInt (v : BitVec 24) : (clampMix v).toInt = clamp v.toInt (-1000) 1000 := by
  refine toInt_ofInt11 ?_
  unfold clamp operandRaw
  omega

/-- A parameter register read as a 32-bit integer keeps its value (R174). -/
theorem param_zeroExtend_toInt (p : BitVec 10) : (p.zeroExtend 32).toInt = p.toNat := by
  have hlt := p.isLt
  rw [BitVec.toInt_setWidth, Int.bmod_eq_of_le (by omega) (by omega)]

/-- On a READY engine a command that waits for READY does what it is for. -/
theorem next_whenReady {act : State → State} {s : State} (hmode : s.mode = .ready) :
    (.next (whenReady s act) : Result) = .next (act s) := by
  rw [whenReady_of_ready hmode]

/-- A response writes the response port and nothing else (R44). -/
theorem onlyResponds_respond (st : BitVec 4) (d : BitVec 32) (s : State) : OnlyResponds s (respond st d s) st d :=
  ⟨rfl, rfl, rfl⟩

end Machine

/-! ### The obligations -/

open Machine

/-- Settles O16: with no failing check INIT is `clearEngine` and a response; the weights, the mix and the words are what
its values are as integers. -/
theorem initClearsTheEngine : Obligations.InitClearsTheEngine := by
  intro s inch outch fs hwf hfs hin hout hmem
  have ⟨_, _, _, _, _, _, _, _, hmix, _⟩ := hwf
  obtain ⟨hwet, hdry⟩ := weights_toInt hmix
  have hexec := execInit_of_success (s := s) (initFailure_eq_none hfs hin hout hmem)
  refine ⟨_, hexec, rfl, rfl, rfl, rfl, rfl, rfl, rfl, rfl, rfl, rfl, rfl, rfl, fun a ha => ?cleared, fun a ha => ?kept,
    rfl, rfl, toInt_ofInt11 hmix, gainRow_zero s.cfg, rfl, hwet, hdry, rfl, rfl, rfl, rfl, rfl, rfl, rfl, rfl, rfl, rfl⟩
  case cleared => exact (Memory.read_clear ..).trans (if_pos ha)
  case kept => exact (Memory.read_clear ..).trans (if_neg (Nat.not_lt.mpr ha))

/-- Settles O19: on a READY engine each SETP is one register write and a response. -/
theorem setpStoresClampedParameter : Obligations.SetpStoresClampedParameter := by
  intro s val id hmode
  exact ⟨⟨_, next_whenReady hmode, clampParam_toNat val, onlyResponds_respond .., fun _ => rfl⟩,
    ⟨_, next_whenReady hmode, clampParam_toNat val, onlyResponds_respond .., fun _ => rfl⟩,
    ⟨_, next_whenReady hmode, clampMix_toInt val, onlyResponds_respond .., fun _ => rfl⟩,
    ⟨_, next_whenReady hmode, onlyResponds_respond .., fun _ => rfl⟩⟩

/-- Settles O20: on a READY engine each GETP is a response with the extended register, or with the sentinel. -/
theorem getpAnswersParameter : Obligations.GetpAnswersParameter := by
  intro s ign id hmode
  exact ⟨⟨_, next_whenReady hmode, BitVec.toNat_setWidth_of_le (by decide), onlyResponds_respond .., fun _ => rfl⟩,
    ⟨_, next_whenReady hmode, BitVec.toNat_setWidth_of_le (by decide), onlyResponds_respond .., fun _ => rfl⟩,
    ⟨_, next_whenReady hmode, BitVec.toInt_signExtend_of_le (by decide), onlyResponds_respond .., fun _ => rfl⟩,
    ⟨_, next_whenReady hmode, onlyResponds_respond .., fun _ => rfl⟩⟩

/-- Settles O21: SETP leaves the engine READY, so GETP answers the register it has just written. -/
theorem getpAfterSetpAnswersClampedValue : Obligations.GetpAfterSetpAnswersClampedValue := by
  intro s val ign hmode
  refine ⟨⟨_, _, next_whenReady hmode, next_whenReady (by exact hmode), ?time⟩,
    ⟨_, _, next_whenReady hmode, next_whenReady (by exact hmode), ?depth⟩,
    ⟨_, _, next_whenReady hmode, next_whenReady (by exact hmode), ?mix⟩⟩
  case time | depth => exact (param_zeroExtend_toInt (clampParam val)).trans (clampParam_toNat val)
  case mix => exact (BitVec.toInt_signExtend_of_le (by decide)).trans (clampMix_toInt val)

/-- Settles O24: a zero count only responds, any other loads `FCNT` and starts at BLKPRO. -/
theorem renderStartsTheSchedule : Obligations.RenderStartsTheSchedule := by
  refine fun s ign n hmode => ⟨?zero, fun hn => execRender_starts (ign := ign) hmode hn⟩
  case zero =>
    rintro rfl
    exact ⟨_, next_whenReady hmode, onlyResponds_respond .., fun _ => rfl⟩

end Sys2Proof
end

section
/-! PROOFS. Family 46_commands.md, single operations of the schedule: BLKPRO (O28), SEND without a frame (O31), EMIT (O41). -/

namespace Sys2Proof

open Machine

/-- Settles O28: BLKPRO is `latchBlock`, whose row and values as integers are known. -/
theorem blockPrologueLatchesParameters : Obligations.BlockPrologueLatchesParameters := by
  intro s hwf hlow hhigh
  obtain ⟨hwet, hdry⟩ := weights_toInt ⟨hlow, hhigh⟩
  have hbounds := wetWeight_bounds ⟨hlow, hhigh⟩
  have hrow := gainRow_wf hwf s.pTime
  refine ⟨goto Seq.send 0 (latchBlock s), rfl, ?row, hrow.1, sendGain_toInt s.pDepth, hwet, hdry, ?range, rfl,
    fun _ => rfl⟩
  case row => rw [← gidx_eq]; rfl
  case range =>
    change 0 ≤ (wetWeight s.pMix.toInt).toInt ∧ (wetWeight s.pMix.toInt).toInt ≤ 2 ^ 24 ∧
      0 ≤ (dryWeight (wetWeight s.pMix.toInt)).toInt ∧ (dryWeight (wetWeight s.pMix.toInt)).toInt ≤ 2 ^ 24
    unfold oneRaw at hbounds
    omega

/-- Settles O31: with no frame in the queue SEND is the identity. -/
theorem sendWaitsForAFrame : Obligations.SendWaitsForAFrame := by
  intro s hnone
  change execSend s = .next s
  rw [execSend, hnone]

/-- Settles O41: EMIT ends the RENDER where one frame is left (`execEmit_last`) and goes on at SEND otherwise
(`execEmit_more`). -/
theorem emitPresentsTheFrame : Obligations.EmitPresentsTheFrame := by
  intro s hfcnt
  by_cases hlast : s.fcnt = 1
  · have hone : s.fcnt.toNat = 1 := by rw [hlast]; rfl
    exact ⟨_, execEmit_last hlast, rfl, rfl, rfl, rfl, hone.symm, rfl, fun hne => absurd hone hne,
      fun _ => ⟨rfl, rfl, rfl, rfl, rfl⟩, rfl, fun _ => rfl⟩
  · have hcount : (s.fcnt - 1).toNat + 1 = s.fcnt.toNat := by bv_omega
    exact ⟨_, execEmit_more hlast, rfl, rfl, rfl, rfl, hcount, rfl, fun _ => ⟨rfl, rfl, rfl, rfl, rfl⟩,
      fun hone => absurd (BitVec.eq_of_toNat_eq hone) hlast, rfl, fun _ => rfl⟩

end Sys2Proof
end

section
/-! PROOFS. Family 46_commands.md, block splitting (O50). -/

namespace Sys2Proof
namespace Machine

/-! ### The session: what belongs to the RENDER command and not to the frames

The operations of a frame neither look at the frame counter, the command port and the response port, nor write them. Two
RENDER commands that differ in these alone therefore run their frames alike. -/

/-- The frame counter, the command port, the response port and the strobes (R25, R43, R44). -/
structure Session where
  fcnt : BitVec 24
  cmdIn : List CmdWord
  outValid : Bool
  rspStatus : BitVec 4
  rspData : BitVec 32
  rspValid : Bool
  rspOut : List Response

/-- The session of a state. -/
def State.session (s : State) : Session :=
  ⟨s.fcnt, s.cmdIn, s.outValid, s.rspStatus, s.rspData, s.rspValid, s.rspOut⟩

/-- The state with another session. -/
def State.inSession (d : Session) (s : State) : State :=
  { s with fcnt := d.fcnt, cmdIn := d.cmdIn, outValid := d.outValid, rspStatus := d.rspStatus, rspData := d.rspData,
           rspValid := d.rspValid, rspOut := d.rspOut }

/-- The session when the next step begins (R48; log 13). -/
def Session.lowered (d : Session) : Session := { d with outValid := false, rspValid := false }

theorem inSession_session (s : State) : s.inSession s.session = s := rfl

theorem lowerStrobes_inSession (d : Session) (s : State) :
    lowerStrobes (s.inSession d) = (lowerStrobes s).inSession d.lowered := rfl

/-- The outcome with its next state changed. -/
def onNext (g : State → State) : Result → Result
  | .next t => .next (g t)
  | .fault f => .fault f
  | .refused r => .refused r

@[simp] theorem inSession_cfg (d : Session) (s : State) : (s.inSession d).cfg = s.cfg := rfl
@[simp] theorem inSession_dz (d : Session) (s : State) : (s.inSession d).dz = s.dz := rfl
@[simp] theorem inSession_ccur (d : Session) (s : State) : (s.inSession d).ccur = s.ccur := rfl
@[simp] theorem inSession_acur (d : Session) (s : State) : (s.inSession d).acur = s.acur := rfl
@[simp] theorem inSession_idx (d : Session) (s : State) : (s.inSession d).idx = s.idx := rfl
@[simp] theorem inSession_fbg (d : Session) (s : State) : (s.inSession d).fbg = s.fbg := rfl
@[simp] theorem inSession_frameIn (d : Session) (s : State) : (s.inSession d).frameIn = s.frameIn := rfl
@[simp] theorem inSession_wires (d : Session) (s : State) : (s.inSession d).wires = s.wires := rfl
@[simp] theorem inSession_fcnt (d : Session) (s : State) : (s.inSession d).fcnt = d.fcnt := rfl

theorem dlRd_inSession (d : Session) (l : LineId) (k : Nat) (s : State) :
    dlRd l k (s.inSession d) = dlRd l k s := by
  cases l <;> rfl

theorem dlWr_inSession (d : Session) (l : LineId) (v : Q) (s : State) :
    dlWr l v (s.inSession d) = (dlWr l v s).map (State.inSession d) := by
  have haddr : writeAddr l (s.inSession d) = writeAddr l s := by cases l <;> rfl
  by_cases hw : writeAddr l s < s.cfg.memWords
  · rw [dlWr_ok hw, dlWr_ok (haddr ▸ hw)]
    cases l <;> rfl
  · simp [dlWr, memWrite, haddr, hw, Except.map]

theorem iir1_inSession (d : Session) (co : Coef1) (z : Tap) (x : Q) (s : State) :
    iir1 co z x (s.inSession d) = ((iir1 co z x s).1, (iir1 co z x s).2.inSession d) := by
  cases z <;> rfl

theorem combMix_inSession (d : Session) (p x g : Q) (s : State) :
    combMix p x g (s.inSession d) = ((combMix p x g s).1, (combMix p x g s).2.inSession d) := by
  rw [combMix_eq, combMix_eq]
  rfl

theorem apOut_inSession (d : Session) (del g v : Q) (s : State) :
    apOut del g v (s.inSession d) = ((apOut del g v s).1, (apOut del g v s).2.inSession d) := by
  rw [apOut_eq, apOut_eq]
  rfl

theorem apBack_inSession (d : Session) (v g o : Q) (s : State) :
    apBack v g o (s.inSession d) = ((apBack v g o s).1, (apBack v g o s).2.inSession d) := by
  rw [apBack_eq, apBack_eq]
  rfl

theorem roundedProduct_inSession (d : Session) (a b : Q) (s : State) :
    roundedProduct a b (s.inSession d) = ((roundedProduct a b s).1, (roundedProduct a b s).2.inSession d) := by
  rw [roundedProduct_eq, roundedProduct_eq]
  rfl

theorem sclip_inSession (d : Session) (m : Q) (s : State) :
    sclip m (s.inSession d) = ((sclip m s).1, (sclip m s).2.inSession d) := by
  simp only [sclip, inSession_cfg, roundedProduct_inSession]

theorem setWires_inSession (d : Session) (w : Wires) (s : State) :
    setWires w (s.inSession d) = (setWires w s).inSession d := rfl

theorem sumLines_inSession (d : Session) (norm : Q) (rs : List Q) (s : State) :
    sumLines norm rs (s.inSession d) = (sumLines norm rs s).inSession d := by
  rw [sumLines_eq, sumLines_eq]
  rfl

theorem nextLine_inSession (d : Session) (here after : BitVec 5) (count : Nat) (s : State) :
    nextLine here after count (s.inSession d) = (nextLine here after count s).inSession d := by
  simp only [nextLine, inSession_idx, apply_ite (State.inSession d)]
  rfl

theorem execSend_inSession (d : Session) (s : State) :
    execSend (s.inSession d) = onNext (State.inSession d) (execSend s) := by
  simp only [execSend, inSession_frameIn]
  split <;> rfl

theorem execPdly_inSession (d : Session) (s : State) :
    execPdly (s.inSession d) = onNext (State.inSession d) (execPdly s) := by
  simp only [execPdly, inSession_wires, inSession_cfg, dlWr_inSession]
  cases dlWr .pre s.wires.t2 s with
  | error f => rfl
  | ok s1 =>
    simp only [Except.map, dlRd_inSession]
    split <;> rfl

theorem execComb_inSession (d : Session) (s : State) :
    execComb (s.inSession d) = onNext (State.inSession d) (execComb s) := by
  simp only [execComb, hasComb, inSession_idx, inSession_cfg, inSession_ccur, inSession_dz, inSession_fbg,
    inSession_wires, dlRd_inSession, iir1_inSession, combMix_inSession, dlWr_inSession]
  split
  · split
    · rfl
    · generalize dlWr _ _ _ = outcome
      cases outcome with
      | error f => rfl
      | ok s3 => simp only [Except.map, setWires_inSession, nextLine_inSession, onNext]
  · rfl

theorem execAp_inSession (d : Session) (s : State) :
    execAp (s.inSession d) = onNext (State.inSession d) (execAp s) := by
  simp only [execAp, hasAp, inSession_idx, inSession_cfg, inSession_acur, inSession_wires, dlRd_inSession,
    apOut_inSession, apBack_inSession, dlWr_inSession]
  split
  · split
    · rfl
    · generalize dlWr _ _ _ = outcome
      cases outcome with
      | error f => rfl
      | ok s3 => simp only [Except.map, setWires_inSession, nextLine_inSession, onNext]
  · rfl

theorem execCnorm_inSession (d : Session) (s : State) :
    execCnorm (s.inSession d) = onNext (State.inSession d) (execCnorm s) := by
  have hclr : accClr (s.inSession d) = (accClr s).inSession d := rfl
  simp only [execCnorm, inSession_wires, inSession_cfg, hclr, sumLines_inSession]
  rfl

theorem execSclipL_inSession (d : Session) (s : State) :
    execSclipL (s.inSession d) = onNext (State.inSession d) (execSclipL s) := by
  simp only [execSclipL, inSession_wires, sclip_inSession]
  rfl

theorem execSclipR_inSession (d : Session) (s : State) :
    execSclipR (s.inSession d) = onNext (State.inSession d) (execSclipR s) := by
  simp only [execSclipR, inSession_wires, sclip_inSession]
  rfl

/-- The operations of the schedule but EMIT leave the session alone. -/
theorem exec_inSession (d : Session) {i : Instr} {c : BitVec 5} (hi : encode i = .seq c) (hemit : c ≠ Seq.emit)
    (s : State) : exec i (s.inSession d) = onNext (State.inSession d) (exec i s) := by
  cases i with
  | idle | blkpro | gsched | biqLp | biqHp | xfadeL | xfadeR => rfl
  | send => exact execSend_inSession d s
  | pdly => exact execPdly_inSession d s
  | comb => exact execComb_inSession d s
  | cnorm => exact execCnorm_inSession d s
  | ap => exact execAp_inSession d s
  | sclipL => exact execSclipL_inSession d s
  | sclipR => exact execSclipR_inSession d s
  | emit => exact absurd (Code.seq.inj hi).symm hemit
  | _ => cases hi

/-! ### A step inside a RENDER in another session -/

theorem busy_step_cases {s t : State} (hrst : s.rst = false) (hseq : s.seq ≠ Seq.idle) (h : step s = .next t) :
    ∃ i, decode (.seq s.seq) = .ok i ∧ exec i (lowerStrobes s) = .next t := by
  rcases step_cases h with ⟨hreset, -⟩ | ⟨-, i, hdec, hexec⟩
  · simp [hrst] at hreset
  · rw [fetchCode_of_busy hseq] at hdec
    rw [accept_of_busy hseq] at hexec
    exact ⟨i, hdec, hexec⟩

theorem step_of_busy {s : State} {i : Instr} (hwf : s.cfg.WF) (hrst : s.rst = false) (hseq : s.seq ≠ Seq.idle)
    (hdec : decode (.seq s.seq) = .ok i) : step s = exec i (lowerStrobes s) := by
  rw [step_of_decode hwf hrst (by rw [fetchCode_of_busy hseq, hdec]), accept_of_busy hseq]

/-- Every step inside a RENDER but EMIT goes alike in every session. -/
theorem step_inSession {s t : State} (hwf : s.cfg.WF) (hrst : s.rst = false) (hseq : s.seq ≠ Seq.idle)
    (hemit : s.seq ≠ Seq.emit) (h : step s = .next t) (d : Session) :
    step (s.inSession d) = .next (t.inSession d.lowered) := by
  obtain ⟨i, hdec, hexec⟩ := busy_step_cases hrst hseq h
  rw [step_of_busy (s := s.inSession d) hwf hrst hseq hdec, lowerStrobes_inSession,
    exec_inSession _ (encode_of_decodeSeq hdec) hemit, hexec]
  rfl

/-- Such a step leaves its own session as it is but for the strobes. -/
theorem step_session {s t : State} (hwf : s.cfg.WF) (hrst : s.rst = false) (hseq : s.seq ≠ Seq.idle)
    (hemit : s.seq ≠ Seq.emit) (h : step s = .next t) : t.session = s.session.lowered := by
  have hsame := step_inSession hwf hrst hseq hemit h s.session
  rw [inSession_session, h] at hsame
  exact congrArg State.session (Host.Outcome.next.inj hsame)

/-- The state after the EMIT of the last frame. -/
def afterLastEmit (s : State) : State :=
  { s with fcnt := 0, seq := Seq.idle, idx := 0, outL := s.wires.yL, outR := s.wires.yR, outValid := true,
           frameOut := s.frameOut ++ [⟨s.wires.yL, s.wires.yR⟩], rspStatus := Status.ok, rspData := 0,
           rspValid := true, rspOut := s.rspOut ++ [⟨Status.ok, 0⟩] }

/-- The state after an EMIT with frames left. -/
def afterEmit (s : State) : State :=
  { s with fcnt := s.fcnt - 1, seq := Seq.send, idx := 0, outL := s.wires.yL, outR := s.wires.yR, outValid := true,
           frameOut := s.frameOut ++ [⟨s.wires.yL, s.wires.yR⟩], rspValid := false }

section
variable {s : State} (hwf : s.cfg.WF) (hrst : s.rst = false) (hseq : s.seq = Seq.emit)
include hwf hrst hseq

theorem step_emit : step s = execEmit (lowerStrobes s) :=
  step_of_busy (i := .emit) hwf hrst (by rw [hseq]; decide) (by rw [hseq]; rfl)

theorem step_emit_last (hlast : s.fcnt = 1) : step s = .next (afterLastEmit s) :=
  (step_emit hwf hrst hseq).trans (execEmit_last hlast)

theorem step_emit_more (hmore : s.fcnt ≠ 1) : step s = .next (afterEmit s) :=
  (step_emit hwf hrst hseq).trans (execEmit_more hmore)

end

/-- A RENDER with `b` frames more to go does the same step in its own session, as long as the RENDER goes on. -/
theorem step_follows {s t : State} {d : Session} {b : Nat} (hs : s.Inv) (hrst : s.rst = false)
    (hseq : s.seq ≠ Seq.idle) (hstep : step s = .next t) (hbusy : t.seq ≠ Seq.idle)
    (hd : d.fcnt.toNat = s.fcnt.toNat + b) :
    ∃ d', step (s.inSession d) = .next (t.inSession d') ∧ d'.fcnt.toNat = t.fcnt.toNat + b ∧ d'.cmdIn = d.cmdIn := by
  by_cases hemit : s.seq = Seq.emit
  · have hmore : s.fcnt ≠ 1 := by
      intro hlast
      rw [step_emit_last hs.config hrst hemit hlast] at hstep
      cases hstep
      exact hbusy rfl
    obtain ⟨-, hfcnt, -⟩ := hs.busy hseq
    rw [step_emit_more hs.config hrst hemit hmore] at hstep
    cases hstep
    have hmore' : (s.inSession d).fcnt ≠ 1 := by
      rw [inSession_fcnt]
      bv_omega
    refine ⟨(afterEmit (s.inSession d)).session, step_emit_more hs.config hrst hemit hmore', ?_, rfl⟩
    change (d.fcnt - 1).toNat = (s.fcnt - 1).toNat + b
    bv_omega
  · have hfcnt : t.fcnt = s.fcnt := congrArg Session.fcnt (step_session hs.config hrst hseq hemit hstep)
    exact ⟨d.lowered, step_inSession hs.config hrst hseq hemit hstep d, by rw [hfcnt]; exact hd, rfl⟩

/-! ### The course of a RENDER up to its last EMIT -/

/-- `k` steps inside a RENDER, none of which ends it. -/
inductive Course : Nat → State → State → Prop
  | refl (s : State) : Course 0 s s
  | cons {k : Nat} {s t e : State} (hs : s.Inv) (hrst : s.rst = false) (hseq : s.seq ≠ Seq.idle)
      (hstep : step s = .next t) (hbusy : t.seq ≠ Seq.idle) (hrest : Course k t e) : Course (k + 1) s e

theorem Course.run {k : Nat} {s e : State} (h : Course k s e) : Sys2Proof.core.run k s = .next e := by
  induction h with
  | refl s => rfl
  | cons _ _ _ hstep _ _ ih => exact (run_succ (M := Sys2Proof.core) hstep _).trans ih

theorem Course.follows {k : Nat} {s e : State} (h : Course k s e) {d : Session} {b : Nat}
    (hd : d.fcnt.toNat = s.fcnt.toNat + b) : ∃ d', Sys2Proof.core.run k (s.inSession d) = .next (e.inSession d') ∧
      d'.fcnt.toNat = e.fcnt.toNat + b ∧ d'.cmdIn = d.cmdIn := by
  induction h generalizing d with
  | refl s => exact ⟨d, rfl, hd, rfl⟩
  | cons hs hrst hseq hstep hbusy _ ih =>
    obtain ⟨d1, hstep1, hd1, hcmd1⟩ := step_follows hs hrst hseq hstep hbusy hd
    obtain ⟨d2, hrun2, hd2, hcmd2⟩ := ih hd1
    exact ⟨d2, (run_succ (M := Sys2Proof.core) hstep1 _).trans hrun2, hd2, hcmd2.trans hcmd1⟩

theorem frameLeft_eq_one {c : Cfg} {code : BitVec 5} {idx : Nat} (h : frameLeft c code idx = 1) : code = Seq.emit := by
  have hcode : code.toNat = 14 := by
    unfold frameLeft at h
    split at h <;> omega
  exact BitVec.eq_of_toNat_eq hcode

/-- One step is left only at the EMIT of the last frame: a frame to come takes more. -/
theorem at_last_emit {s : State} (hfcnt : s.fcnt ≠ 0) (h : renderLeft s = 1) : s.seq = Seq.emit ∧ s.fcnt = 1 := by
  unfold renderLeft at h
  cases hmore : s.fcnt.toNat - 1 with
  | zero =>
    rw [hmore, Nat.zero_mul] at h
    exact ⟨frameLeft_eq_one h, by bv_omega⟩
  | succ m =>
    have hlong : 10 ≤ frameSteps s.cfg := by
      unfold frameSteps
      omega
    rw [hmore, Nat.succ_mul] at h
    omega

/-- A RENDER whose frames are offered comes to its last EMIT, one step before its end. -/
theorem course_to_last_emit (k : Nat) : ∀ {s : State}, s.Inv → s.rst = false → s.seq ≠ Seq.idle →
    framesDue s ≤ s.frameIn.length → renderLeft s = k + 1 →
    ∃ e, Course k s e ∧ e.Inv ∧ e.rst = false ∧ e.seq = Seq.emit ∧ e.fcnt = 1 := by
  induction k with
  | zero =>
    intro s hs hrst hseq _ hleft
    obtain ⟨hemit, hlast⟩ := at_last_emit (hs.busy hseq).2.1 hleft
    exact ⟨s, .refl s, hs, hrst, hemit, hlast⟩
  | succ k ih =>
    intro s hs hrst hseq henough hleft
    obtain ⟨t, hstep, ht⟩ := step_renderStep hs hrst hseq henough
    have hleft' : renderLeft t = k + 1 := by
      have := ht.left
      omega
    have hbusy : t.seq ≠ Seq.idle := fun hidle => by
      have := (ht.ended hidle).2.1
      omega
    obtain ⟨e, hcourse, he⟩ := ih (step_inv hs hstep) (ht.rst.trans hrst) hbusy ht.enough hleft'
    exact ⟨e, .cons hs hrst hseq hstep hbusy hcourse, he⟩

/-! ### The latches between two prologues (R46, R176) -/

/-- The latches hold what a block prologue would put there. -/
structure State.Latched (s : State) : Prop where
  fbg : s.fbg = gainRow s.cfg s.pTime
  sendg : s.sendg = sendGain s.pDepth
  wetw : s.wetw = wetWeight s.pMix.toInt
  dryw : s.dryw = dryWeight s.wetw

/-- No operation of the schedule writes a parameter register, and the two that write latches write these values. -/
theorem exec_latched {i : Instr} {c : BitVec 5} {s t : State} (hi : encode i = .seq c) (hs : s.Latched)
    (h : exec i s = .next t) : t.Latched := by
  have hinit : ∀ a b f, i ≠ .init a b f := by
    rintro a b f rfl
    cases hi
  have hcontrol : t.control = s.control := by
    rcases exec_control_cases h with hall | ⟨a, b, f, rfl, -⟩ | ⟨v, rfl, -⟩ | ⟨v, rfl, -⟩ | ⟨v, rfl, -⟩
    · exact hall
    all_goals cases hi
  by_cases hblk : i = .blkpro
  · subst hblk
    cases h
    exact ⟨rfl, rfl, rfl, rfl⟩
  obtain ⟨hcfg, -, htime, hdepth, hmix⟩ := control_eq_iff.mp hcontrol
  obtain ⟨hsendg, hwetw, hdryw⟩ := exec_latches h hinit hblk
  refine ⟨?fbg, ?_, ?_, ?_⟩
  case fbg =>
    by_cases hgs : i = .gsched
    · subst hgs
      cases h
      rfl
    · rw [exec_gains h hinit hblk hgs, hcfg, htime]
      exact hs.fbg
  · rw [hsendg, hdepth]
    exact hs.sendg
  · rw [hwetw, hmix]
    exact hs.wetw
  · rw [hdryw, hwetw]
    exact hs.dryw

theorem Course.latched {k : Nat} {s e : State} (h : Course k s e) (hs : s.Latched) : e.Latched := by
  induction h with
  | refl s => exact hs
  | cons _ hrst hseq hstep _ _ ih =>
    obtain ⟨i, hdec, hexec⟩ := busy_step_cases hrst hseq hstep
    have hlowered : (lowerStrobes _).Latched := ⟨hs.fbg, hs.sendg, hs.wetw, hs.dryw⟩
    exact ih (exec_latched (encode_of_decodeSeq hdec) hlowered hexec)

theorem Course.cfg_eq {k : Nat} {s e : State} (h : Course k s e) : e.cfg = s.cfg := by
  induction h with
  | refl s => rfl
  | cons _ hrst hseq hstep _ _ ih =>
    obtain ⟨i, -, hexec⟩ := busy_step_cases hrst hseq hstep
    exact ih.trans (parametersAndModeHaveOneWriter _ _ _ hexec).1

/-! ### Blocks -/

theorem run_one (M : Host.Core) (s : M.State) : M.run 1 s = M.step s := by
  rw [Host.Core.run]
  cases M.step s <;> rfl

theorem run_add {M : Host.Core} {j : Nat} {s t : M.State} (h : M.run j s = .next t) (k : Nat) :
    M.run (j + k) s = M.run k t := by
  induction j generalizing s with
  | zero =>
    cases h
    rw [Nat.zero_add]
  | succ j ih =>
    rw [Host.Core.run] at h
    rw [Nat.succ_add, Host.Core.run]
    split at h
    next s1 hstep =>
      exact ih h
    · cases h
    · cases h

/-- The state after the command and the prologue of a RENDER of `n` frames, with the commands `rest` still offered. -/
def blockStart (n : BitVec 24) (rest : List CmdWord) (s : State) : State :=
  { s with outValid := false, rspValid := false, cmdIn := rest, fcnt := n, seq := Seq.send, idx := 0,
           fbg := gainRow s.cfg s.pTime, sendg := sendGain s.pDepth, wetw := wetWeight s.pMix.toInt,
           dryw := dryWeight (wetWeight s.pMix.toInt) }

theorem prologue_eq_blockStart (n : BitVec 24) (rest : List CmdWord) (s : State) :
    goto Seq.send 0 (latchBlock (lowerStrobes (renderStart n rest s))) = blockStart n rest s := by
  simp only [renderStart, lowerStrobes, latchBlock, gschedule, goto, blockStart]

/-- What a block of `n` frames begins with. -/
structure AtBlock (n : BitVec 24) (rest : List CmdWord) (s : State) : Prop where
  inv : s.Inv
  rst : s.rst = false
  seq : s.seq = Seq.send
  latched : s.Latched
  fcnt : s.fcnt = n
  cmdIn : s.cmdIn = rest

theorem block_starts {s : State} {w : CmdWord} {rest : List CmdWord} {ign : BitVec 4} {n : BitVec 24} (hs : s.Inv)
    (hrst : s.rst = false) (hmode : s.mode = .ready) (hseq : s.seq = Seq.idle) (hcmd : s.cmdIn = w :: rest)
    (hdec : decodeCmd w = .render ign n) (hn : n ≠ 0) :
    Sys2Proof.core.run 2 s = .next (blockStart n rest s) ∧ AtBlock n rest (blockStart n rest s) := by
  have hcommand := step_render hs hrst hmode hseq hcmd hdec hn
  have hprologue : step (renderStart n rest s) = .next (blockStart n rest s) :=
    (step_of_busy (s := renderStart n rest s) (i := .blkpro) hs.config hrst
      (by decide : Seq.blkpro ≠ Seq.idle) rfl).trans (congrArg Host.Outcome.next (prologue_eq_blockStart n rest s))
  refine ⟨(run_succ (M := Sys2Proof.core) hcommand 1).trans ((run_one _ _).trans hprologue), ?_⟩
  exact {
    inv := step_inv (step_inv hs hcommand) hprologue
    rst := hrst
    seq := rfl
    latched := ⟨rfl, rfl, rfl, rfl⟩
    fcnt := rfl
    cmdIn := rfl }

/-- Where a block of `n` frames from `s` ends, beside a RENDER in session `d` with `b` frames more to go: both come to
the EMIT that is the last of the block, at `e`, and there they differ in their sessions alone. -/
structure BlockEnds (n : BitVec 24) (b : Nat) (s : State) (d : Session) (e : State) (d' : Session) : Prop where
  inv : e.Inv
  rst : e.rst = false
  cfg : e.cfg = s.cfg
  latched : e.Latched
  seq : e.seq = Seq.emit
  last : e.fcnt = 1
  fcnt : d'.fcnt.toNat = 1 + b
  cmdIn : d'.cmdIn = d.cmdIn
  own : Sys2Proof.core.run (n.toNat * frameSteps s.cfg) s = .next (afterLastEmit e)
  beside : Sys2Proof.core.run (n.toNat * frameSteps s.cfg) (s.inSession d) = step (e.inSession d')
  ends : RenderEnds s (afterLastEmit e)

theorem block_runs {n : BitVec 24} {rest : List CmdWord} {s : State} {d : Session} {b : Nat} (hs : AtBlock n rest s)
    (henough : n.toNat ≤ s.frameIn.length) (hd : d.fcnt.toNat = n.toNat + b) : ∃ e d', BlockEnds n b s d e d' := by
  obtain ⟨hinv, hrst, hseq, hlatched, rfl, -⟩ := hs
  have hbusy : s.seq ≠ Seq.idle := by rw [hseq]; decide
  obtain ⟨-, hfcnt, -⟩ := hinv.busy hbusy
  obtain ⟨m, hm⟩ : ∃ m, s.fcnt.toNat = m + 1 := Nat.exists_eq_add_of_le' (by bv_omega)
  have hdue : framesDue s ≤ s.frameIn.length := by
    rw [framesDue, hseq, if_pos (by decide)]
    exact henough
  have hleft : renderLeft s = s.fcnt.toNat * frameSteps s.cfg := by
    rw [renderLeft, hseq, frameLeft_send, hm, Nat.add_sub_cancel, Nat.succ_mul, Nat.add_comm]
  obtain ⟨k, hk⟩ : ∃ k, s.fcnt.toNat * frameSteps s.cfg = k + 1 := by
    refine Nat.exists_eq_add_of_le' (Nat.mul_pos (by omega) ?_)
    unfold frameSteps
    omega
  obtain ⟨e, hcourse, he, herst, hemit, hlast⟩ := course_to_last_emit k hinv hrst hbusy hdue (hleft.trans hk)
  obtain ⟨d', hfollow, hd', hcmd⟩ := hcourse.follows hd
  obtain ⟨u, hrun, hends⟩ := render_runs _ hinv hrst hbusy hdue rfl
  have hown : Sys2Proof.core.run (s.fcnt.toNat * frameSteps s.cfg) s = .next (afterLastEmit e) := by
    rw [hk]
    exact (run_add hcourse.run 1).trans ((run_one _ _).trans (step_emit_last he.config herst hemit hlast))
  rw [hleft, hown] at hrun
  cases hrun
  refine ⟨e, d', he, herst, hcourse.cfg_eq, hcourse.latched hlatched, hemit, hlast, by rw [hd', hlast]; rfl, hcmd,
    hown, ?_, hends⟩
  rw [hk]
  exact (run_add hfollow 1).trans (run_one _ _)

/-- Two blocks that begin in the same state differ in their sessions alone. -/
theorem blockStart_inSession (n n' : BitVec 24) (rest rest' ws ws' : List CmdWord) (s : State) :
    blockStart n' rest' { s with cmdIn := ws' } =
      (blockStart n rest { s with cmdIn := ws }).inSession (blockStart n' rest' s).session := rfl

/-- Another command and prologue put a latched engine back to SEND as if the RENDER had gone on (R175). -/
theorem afterEmit_eq_blockStart {e : State} (h : e.Latched) (d : Session) (n : BitVec 24) (rest : List CmdWord) :
    afterEmit (e.inSession d) =
      (blockStart n rest (afterLastEmit e)).inSession (afterEmit (e.inSession d)).session := by
  obtain ⟨hfbg, hsendg, hwetw, hdryw⟩ := h
  simp only [afterEmit, blockStart, afterLastEmit, State.inSession, State.session, ← hfbg, ← hsendg, ← hdryw, ← hwetw]

/-- After the last EMIT nothing of the session is left but the command port and the history of responses. -/
theorem afterLastEmit_inSession (e : State) {d : Session} (hcmd : d.cmdIn = e.cmdIn) :
    afterLastEmit e = { afterLastEmit (e.inSession d) with rspOut := (afterLastEmit e).rspOut } := by
  simp only [afterLastEmit, State.inSession, hcmd]

theorem AtBlock.framesDue_eq {n : BitVec 24} {rest : List CmdWord} {s : State} (h : AtBlock n rest s) :
    framesDue s = n.toNat := by
  rw [framesDue, h.seq, if_pos (by decide), h.fcnt]

/-- A block of `a` frames with the RENDER of another `b` offered behind it, beside one of `a + b`: the second command and its
prologue take two steps more, and then the second block runs beside what is left of the undivided one. -/
theorem two_blocks_run {a b ab : BitVec 24} {w : CmdWord} {ign : BitVec 4} {s : State} {d : Session}
    (hs : AtBlock a [w] s) (hdec : decodeCmd w = .render ign b) (hb : b ≠ 0) (hsum : a.toNat + b.toNat = ab.toNat)
    (henough : ab.toNat ≤ s.frameIn.length) (hfcnt : d.fcnt = ab) (hcmd : d.cmdIn = []) :
    ∃ t u, Sys2Proof.core.run (2 + ab.toNat * frameSteps s.cfg) s = .next t ∧
      Sys2Proof.core.run (ab.toNat * frameSteps s.cfg) (s.inSession d) = .next u ∧ t = { u with rspOut := t.rspOut } := by
  have hmode : s.mode = .ready := (hs.inv.busy (by rw [hs.seq]; decide)).1
  obtain ⟨e, d1, h1⟩ := block_runs (b := b.toNat) hs (by omega) (by rw [hfcnt]; exact hsum.symm)
  have hlast := step_emit_last h1.inv.config h1.rst h1.seq h1.last
  obtain ⟨hrun, hblock⟩ := block_starts (step_inv h1.inv hlast) h1.rst (h1.ends.mode.trans hmode) rfl
    (h1.ends.cmdIn.trans hs.cmdIn) hdec hb
  have hframes : (blockStart b [] (afterLastEmit e)).frameIn = s.frameIn.drop a.toNat := by
    rw [← hs.framesDue_eq]
    exact h1.ends.frames
  have hcfg : (blockStart b [] (afterLastEmit e)).cfg = s.cfg := h1.cfg
  have hfcnt1 := h1.fcnt
  have hleft : (d1.fcnt - 1).toNat = b.toNat + 0 := by bv_omega
  have hmore : d1.fcnt ≠ 1 := by bv_omega
  have hemit := step_emit_more (s := e.inSession d1) h1.inv.config h1.rst h1.seq hmore
  obtain ⟨e', d2, h2⟩ := block_runs (d := (afterEmit (e.inSession d1)).session) hblock
    (by rw [hframes, List.length_drop]; omega) hleft
  have hown := h2.own
  have hbeside := h2.beside
  rw [hcfg] at hown hbeside
  rw [← afterEmit_eq_blockStart h1.latched] at hbeside
  have hlast2 := step_emit_last (s := e'.inSession d2) h2.inv.config h2.rst h2.seq (BitVec.eq_of_toNat_eq h2.fcnt)
  have hcmd2 : d2.cmdIn = e'.cmdIn :=
    calc d2.cmdIn = d1.cmdIn := h2.cmdIn
      _ = [] := h1.cmdIn.trans hcmd
      _ = e'.cmdIn := h2.ends.cmdIn.symm
  refine ⟨afterLastEmit e', afterLastEmit (e'.inSession d2), ?split, ?whole, afterLastEmit_inSession e' hcmd2⟩
  case split =>
    have hsteps : 2 + ab.toNat * frameSteps s.cfg =
        a.toNat * frameSteps s.cfg + (2 + b.toNat * frameSteps s.cfg) := by
      rw [← hsum, Nat.add_mul]
      omega
    rw [hsteps]
    exact (run_add h1.own _).trans ((run_add hrun _).trans hown)
  case whole =>
    rw [← hsum, Nat.add_mul]
    exact (run_add (h1.beside.trans hemit) _).trans (hbeside.trans hlast2)

/-- The invariant looks at neither what the host offers nor what the ports hold. -/
theorem State.Inv.congr {s t : State} (hs : s.Inv) (hbody : t.body = s.body) (hpos : t.position = s.position) :
    t.Inv := by
  obtain ⟨hsound, hseq⟩ := inv_iff.mp hs
  exact inv_iff.mpr ⟨hsound.congr hbody, hseq.congr hpos⟩

end Machine

/-! ### The obligation -/

open Machine

/-- Settles O50: the first block runs beside the undivided RENDER, which has the frames of the second block more to go
(`block_runs`). The second command and its prologue latch what is latched already, so the core stands where the undivided
RENDER stands but for the session, and the second block runs beside the rest of it. -/
theorem splittingABlockChangesNothing : Obligations.SplittingABlockChangesNothing := by
  intro s wa wb wab ia ib iab a b ab hs hrst hmode hseq hda hdb hdab ha hb hsum henough
  have hab : ab ≠ 0 := by bv_omega
  obtain ⟨hrun, hblock⟩ := block_starts (s := { s with cmdIn := [wa, wb] }) (hs.congr rfl rfl) hrst hmode hseq rfl hda ha
  obtain ⟨hrunWhole, -⟩ := block_starts (s := { s with cmdIn := [wab] }) (hs.congr rfl rfl) hrst hmode hseq rfl hdab hab
  rw [blockStart_inSession a ab [wb] [] [wa, wb] [wab] s] at hrunWhole
  obtain ⟨t, u, ht, hu, heq⟩ := two_blocks_run (d := (blockStart ab [] s).session) hblock hdb hb hsum henough rfl rfl
  refine ⟨t, u, ?_, (run_add hrunWhole _).trans hu, heq⟩
  rw [show 4 + ab.toNat * frameSteps s.cfg = 2 + (2 + ab.toNat * frameSteps s.cfg) by omega]
  exact (run_add hrun _).trans ht

end Sys2Proof
end

section
/-! PROOFS. Family 46_commands.md, the wet sample of a frame (O52). -/

namespace Sys2Proof
namespace Machine

/-! ### The wet sample as a function of the state in front of the frame (R142, R143, R152)

Every line is read before it is written, and no line's region is written by another line, so the comb bank and the all-pass
chain read what stood in DMEM before the frame. -/

/-- What comb line `i` would return now. -/
def combTap (s : State) (i : Nat) : Q := s.mem.read (readAddr (.comb i) (combCfg s.cfg i).delay s)

/-- What the first `k` comb lines would return now. -/
def combTaps (s : State) (k : Nat) : List Q := (List.range k).map (combTap s)

/-- What all-pass line `j` would read now. -/
def apTap (s : State) (j : Nat) : Q := s.mem.read (readAddr (.ap j) (apCfg s.cfg j).delay s)

/-- `v` of APCH after `j` lines: the normalised comb bank first (R143), then one all-pass output after the other (R151). -/
def chainValue (s : State) : Nat → Q
  | 0 => sat32 (rtz (((combTaps s s.cfg.n).map (·.toInt)).sum * s.cfg.combNorm.toInt) 24)
  | j + 1 => sat32 (rtz ((apTap s j).toInt * 2 ^ 24 - (apCfg s.cfg j).gain.toInt * (chainValue s j).toInt) 24)

/-! ### Lines that a frame has not come to -/

/-- A line's cursor and the words of its region are the same in both states. -/
structure SameLine (l : LineId) (s t : State) : Prop where
  cursor : lineCursor t l = lineCursor s l
  words : ∀ a, lineBase s.cfg l ≤ a → a < lineBase s.cfg l + lineCap s.cfg l → t.mem.read a = s.mem.read a

section
variable {l : LineId} {s t u : State}

theorem sameLine_of_eq (hmem : t.mem = s.mem) (hpre : t.pcur = s.pcur) (hcomb : t.ccur = s.ccur)
    (hap : t.acur = s.acur) : SameLine l s t :=
  ⟨lineCursor_congr hpre hcomb hap l, fun _ _ _ => by rw [hmem]⟩

theorem SameLine.trans (h : SameLine l s t) (hcfg : t.cfg = s.cfg) (h' : SameLine l t u) : SameLine l s u := by
  refine ⟨h'.cursor.trans h.cursor, fun a hlo hhi => ?_⟩
  rw [h'.words a (by rw [hcfg]; exact hlo) (by rw [hcfg]; exact hhi)]
  exact h.words a hlo hhi

/-- Such a line gives the same value on DL.RD. -/
theorem SameLine.read (h : SameLine l s t) (hcfg : t.cfg = s.cfg) (hcap : 0 < lineCap s.cfg l) (k : Nat) :
    t.mem.read (readAddr l k t) = s.mem.read (readAddr l k s) := by
  have haddr : readAddr l k t = readAddr l k s := by rw [readAddr, readAddr, hcfg, h.cursor]
  obtain ⟨hlo, hhi⟩ := readAddr_lt l k s hcap
  rw [haddr, h.words _ hlo hhi]

/-- A store into one line leaves the others alone. -/
theorem sameLine_stored {l' : LineId} (hne : l ≠ l') (hwf : s.mem.wf = true) (hcur : s.cursorOk l') (v : Q) :
    SameLine l s (stored l' v s) :=
  ⟨lineCursor_stored_ne hne v s, fun _ hlo hhi =>
    read_stored hwf (ne_writeAddr hcur (line_regions_disjoint s.cfg hne hlo hhi))⟩

/-- The sequencer and the wires are no line's. -/
theorem SameLine.stage (h : SameLine l s t) (code : BitVec 5) (k : BitVec 6) (w : Wires) :
    SameLine l s (goto code k (setWires w t)) :=
  ⟨(lineCursor_congr rfl rfl rfl l).trans h.cursor, h.words⟩

end

/-- The lines that the frame comes to at this position of the schedule or after it. -/
def lineAhead (code : BitVec 5) (idx : Nat) : LineId → Prop
  | .pre => False
  | .comb k => code.toNat < 7 ∨ code = Seq.comb ∧ idx ≤ k
  | .ap j => code.toNat < 9 ∨ code = Seq.ap ∧ idx ≤ j

theorem lineAhead_of_lt {code code' : BitVec 5} {idx idx' : Nat} {l : LineId} (hcode : code.toNat < 7)
    (h : lineAhead code' idx' l) : lineAhead code idx l := by
  cases l with
  | pre => exact h
  | comb k => exact .inl hcode
  | ap j => exact .inl (hcode.trans (by decide))

/-- From XFADE.L on no line is ahead. -/
theorem not_lineAhead {code : BitVec 5} {idx : Nat} {l : LineId} (hcode : 10 ≤ code.toNat) : ¬ lineAhead code idx l := by
  have hne : ∀ c : BitVec 5, c.toNat < 10 → code ≠ c := by
    rintro c hc rfl
    omega
  cases l with
  | pre => exact id
  | comb k =>
    rintro (h | ⟨h, -⟩)
    · omega
    · exact hne _ (by decide) h
  | ap j =>
    rintro (h | ⟨h, -⟩)
    · omega
    · exact hne _ (by decide) h

/-- After comb line `idx` its own line is behind and no other one. -/
theorem lineAhead_after_comb {code : BitVec 5} {idx k : BitVec 6} {count : Nat} {l : LineId} (hcount : count ≤ 64)
    (hmove : LineMove Seq.comb Seq.cnorm count idx code k) (h : lineAhead code k.toNat l) :
    lineAhead Seq.comb idx.toNat l ∧ l ≠ .comb idx.toNat := by
  cases l with
  | pre => exact h.elim
  | comb i =>
    cases hmove with
    | next hlt =>
      have hidx := toNat_idx_succ hlt hcount
      rcases h with h | ⟨-, hle⟩
      · exact absurd h (by decide)
      · exact ⟨.inr ⟨rfl, by omega⟩, fun heq => by cases heq; omega⟩
    | last hle => rcases h with h | ⟨h, -⟩ <;> exact absurd h (by decide)
  | ap j => exact ⟨.inl (by decide), by simp⟩

theorem lineAhead_after_ap {code : BitVec 5} {idx k : BitVec 6} {count : Nat} {l : LineId} (hcount : count ≤ 64)
    (hmove : LineMove Seq.ap Seq.xfadeL count idx code k) (h : lineAhead code k.toNat l) :
    lineAhead Seq.ap idx.toNat l ∧ l ≠ .ap idx.toNat := by
  cases hmove with
  | last hle => exact absurd h (not_lineAhead (by decide))
  | next hlt =>
    have hidx := toNat_idx_succ hlt hcount
    cases l with
    | pre => exact h.elim
    | comb i => rcases h with h | ⟨h, -⟩ <;> exact absurd h (by decide)
    | ap j =>
      rcases h with h | ⟨-, hle⟩
      · exact absurd h (by decide)
      · exact ⟨.inr ⟨rfl, by omega⟩, fun heq => by cases heq; omega⟩

theorem not_isCommand {i : Instr} {c : BitVec 5} (hi : encode i = .seq c) : ¬ i.isCommand := by
  rintro ⟨w, hw⟩
  rw [hi] at hw
  cases hw

/-- An operation of the frame leaves the lines alone that are ahead after it, and they were ahead before it. -/
theorem exec_sameLine {i : Instr} {s t : State} {l : LineId} (hs : s.Inv) (hi : encode i = .seq s.seq)
    (hseq : s.seq ≠ Seq.idle) (hemit : i ≠ .emit) (h : exec i s = .next t) (hl : lineAhead t.seq t.idx.toNat l) :
    lineAhead s.seq s.idx.toNat l ∧ SameLine l s t := by
  have hdue : s.due i := .inl hi
  have hengine := hs.engine (hs.busy hseq).1
  have hwf := hs.memory.1
  have ⟨⟨_, hn64, _, hm64⟩, _⟩ := hs.config
  cases exec_footprint h with
  | responds _ _ hcmd => exact absurd hcmd (not_isCommand hi)
  | initFails | initClears | setsTime | setsDepth | setsMix | starts => cases hi
  | emitsLast | emits => exact absurd rfl hemit
  | idles => exact absurd (hdue.seq_eq rfl) hseq
  | latches | schedules | waits | takes | filtersLow | filtersHigh =>
    exact ⟨lineAhead_of_lt (by rw [hdue.seq_eq rfl]; decide) hl, sameLine_of_eq rfl rfl rfl rfl⟩
  | delays v =>
    have hne : l ≠ .pre := by
      rintro rfl
      exact hl
    exact ⟨lineAhead_of_lt (by rw [hdue.seq_eq rfl]; decide) hl, (sameLine_stored hne hwf hengine.preCursor v).stage _ _ _⟩
  | @combs w z code k v a hline _ _ _ hmove =>
    obtain ⟨hahead, hne⟩ := lineAhead_after_comb hn64 hmove hl
    rw [hdue.seq_eq rfl]
    have hfed : SameLine l s (setAcc a (setTap (.dz s.idx.toNat) z s)) := sameLine_of_eq rfl rfl rfl rfl
    have hstored := sameLine_stored (s := setAcc a (setTap (.dz s.idx.toNat) z s)) hne hwf
      (hengine.combCursors _ hline.1) v
    exact ⟨hahead, (hfed.trans rfl hstored).stage _ _ _⟩
  | @allPasses code k w v a hline _ hmove =>
    obtain ⟨hahead, hne⟩ := lineAhead_after_ap hm64 hmove hl
    rw [hdue.seq_eq rfl]
    have hfed : SameLine l s (setAcc a s) := sameLine_of_eq rfl rfl rfl rfl
    have hstored := sameLine_stored (s := setAcc a s) hne hwf (hengine.apCursors _ hline.1) v
    exact ⟨hahead, (hfed.trans rfl hstored).stage _ _ _⟩
  | computes w a hstraight =>
    rw [goto_seq] at hl
    cases hstraight with
    | cnorm =>
      refine ⟨?_, sameLine_of_eq rfl rfl rfl rfl⟩
      rw [hdue.seq_eq rfl]
      cases l with
      | pre => exact hl
      | comb k => rcases hl with h | ⟨h, -⟩ <;> exact absurd h (by decide)
      | ap j => exact .inl (by decide)
    | xfadeL | sclipL | xfadeR | sclipR => exact absurd hl (not_lineAhead (by decide))

/-! ### The wires of the frame -/

/-- The comb results and the chain value that the wires hold at each position, read from the state `s0` in front of the
frame. -/
structure WetWires (s0 s : State) : Prop where
  comb : s.seq = Seq.comb → s.wires.r = combTaps s0 s.idx.toNat
  cnorm : s.seq = Seq.cnorm → s.wires.r = combTaps s0 s0.cfg.n
  ap : s.seq = Seq.ap → s.wires.v = chainValue s0 s.idx.toNat
  wet : 10 ≤ s.seq.toNat → s.wires.v = chainValue s0 s0.cfg.m

section
variable {s0 s : State}

theorem wetWires_before_combs (hseq : s.seq.toNat < 7) : WetWires s0 s := by
  constructor <;> intro h
  case wet => omega
  all_goals rw [h] at hseq; exact absurd hseq (by decide)

theorem wetWires_at_comb (hseq : s.seq = Seq.comb) (hr : s.wires.r = combTaps s0 s.idx.toNat) : WetWires s0 s := by
  constructor <;> rw [hseq]
  case comb => exact fun _ => hr
  all_goals exact fun h => absurd h (by decide)

theorem wetWires_at_cnorm (hseq : s.seq = Seq.cnorm) (hr : s.wires.r = combTaps s0 s0.cfg.n) : WetWires s0 s := by
  constructor <;> rw [hseq]
  case cnorm => exact fun _ => hr
  all_goals exact fun h => absurd h (by decide)

theorem wetWires_at_ap (hseq : s.seq = Seq.ap) (hv : s.wires.v = chainValue s0 s.idx.toNat) : WetWires s0 s := by
  constructor <;> rw [hseq]
  case ap => exact fun _ => hv
  all_goals exact fun h => absurd h (by decide)

theorem wetWires_after_aps (hseq : 10 ≤ s.seq.toNat) (hv : s.wires.v = chainValue s0 s0.cfg.m) : WetWires s0 s := by
  constructor <;> intro h
  case wet => exact hv
  all_goals rw [h] at hseq; exact absurd hseq (by decide)

/-- The operations before the comb bank move to another one of them or to COMB, where no result is held yet. -/
theorem exec_early_wetWires {t : State} {i : Instr} (hi : encode i = .seq s.seq) (hseq : s.seq ≠ Seq.idle)
    (hearly : s.seq.toNat < 7) (h : exec i s = .next t) : WetWires s0 t := by
  have hdue : s.due i := .inl hi
  have hlate : ∀ {c : BitVec 5}, encode i = .seq c → 7 ≤ c.toNat → False := fun hc hle => by
    rw [hdue.seq_eq hc] at hearly
    omega
  cases exec_footprint h with
  | responds _ _ hcmd => exact absurd hcmd (not_isCommand hi)
  | initFails | initClears | setsTime | setsDepth | setsMix | starts => cases hi
  | idles => exact absurd (hdue.seq_eq rfl) hseq
  | waits => exact wetWires_before_combs hearly
  | latches | schedules | takes | filtersLow | filtersHigh =>
    refine wetWires_before_combs ?_
    rw [goto_seq]
    decide
  | delays v hr => exact wetWires_at_comb rfl hr
  | combs | allPasses | emitsLast | emits => exact (hlate rfl (by decide)).elim
  | computes w a hstraight => cases hstraight <;> exact (hlate rfl (by decide)).elim

/-- The output stage keeps the wet sample (R161, R163). -/
theorem wetWires_of_output {t : State} {code : BitVec 5} {k : BitVec 6} {w : Wires} {u : State}
    (h : (.next (goto code k (setWires w u)) : Result) = .next t) (hcode : 10 ≤ code.toNat)
    (hv : w.v = chainValue s0 s0.cfg.m) : WetWires s0 t := by
  cases h
  exact wetWires_after_aps hcode hv

end

/-- The frame that began in `s0` has come to `s`: the lines ahead are as they were, and the wires hold what was read from
the lines behind. -/
structure WetPath (s0 s : State) : Prop where
  cfg : s.cfg = s0.cfg
  lines : ∀ l, lineAhead s.seq s.idx.toNat l → SameLine l s0 s
  wires : WetWires s0 s

section
variable {s0 s t : State} (hs : s.Inv) (hw : WetPath s0 s)
include hs hw

theorem exec_comb_wetWires (hseq : s.seq = Seq.comb) (h : exec .comb s = .next t) : WetWires s0 t := by
  have hengine := hs.engine (hs.busy (by rw [hseq]; decide)).1
  obtain ⟨hdz, hccur, hfbg, -⟩ := hs.lengths
  have hidx := (hs.combIdx hseq).1
  obtain ⟨t', r, d, w, hexec, hr, -, -, -, -, -, -, -, -, hwires, hnext, hlast, -⟩ :=
    combLineFollowsItsRule s s.idx.toNat rfl hidx hs.config hengine.storage hdz hccur hfbg
      (hengine.combCursors _ hidx) hs.memory.1 (hengine.dzTaps _ hidx)
  cases h.symm.trans hexec
  have hline := hw.lines (.comb s.idx.toNat) (.inr ⟨hseq, le_rfl⟩)
  have hcap : 0 < lineCap s0.cfg (.comb s.idx.toNat) := hw.cfg ▸ (lineCap_pos hs.config).2.1 _ hidx
  have hread : r = combTap s0 s.idx.toNat := by
    rw [hr, hline.read hw.cfg hcap, combTap, hw.cfg]
  have htaps : t.wires.r = combTaps s0 (s.idx.toNat + 1) := by
    rw [hwires, combTaps, List.range_succ, List.map_append, hread]
    exact congrArg (· ++ [combTap s0 s.idx.toNat]) (hw.wires.comb hseq)
  rcases Nat.lt_or_eq_of_le hidx with hlt | heq
  · obtain ⟨htseq, htidx⟩ := hnext hlt
    exact wetWires_at_comb htseq (htidx ▸ htaps)
  · obtain ⟨htseq, -⟩ := hlast heq
    exact wetWires_at_cnorm htseq (by rw [htaps, ← hw.cfg, ← heq])

theorem exec_cnorm_wetWires (hseq : s.seq = Seq.cnorm) (h : exec .cnorm s = .next t) : WetWires s0 t := by
  have ⟨⟨_, hn64, _⟩, _⟩ := hs.config
  have hlen : s.wires.r.length ≤ 64 := (hs.cnormResults hseq).symm ▸ hn64
  obtain ⟨t', hexec, hv, hframe, -⟩ := normalisationScalesTheExactSum s hlen
  cases h.symm.trans hexec
  have hidx : t.idx = 0 := congrArg State.idx hframe
  refine wetWires_at_ap (congrArg State.seq hframe) ?_
  rw [hv, hidx, hw.wires.cnorm hseq, hw.cfg]
  rfl

theorem exec_ap_wetWires (hseq : s.seq = Seq.ap) (h : exec .ap s = .next t) : WetWires s0 t := by
  have hengine := hs.engine (hs.busy (by rw [hseq]; decide)).1
  obtain ⟨-, -, -, hacur⟩ := hs.lengths
  have hidx := hs.apIdx hseq
  obtain ⟨t', del, o, w, hexec, hdel, ho, -, -, -, -, hwires, hnext, hlast, -⟩ :=
    allPassLineFollowsItsRule s s.idx.toNat rfl hidx hs.config hengine.storage hacur (hengine.apCursors _ hidx)
      hs.memory.1
  cases h.symm.trans hexec
  have hline := hw.lines (.ap s.idx.toNat) (.inr ⟨hseq, le_rfl⟩)
  have hcap : 0 < lineCap s0.cfg (.ap s.idx.toNat) := hw.cfg ▸ (lineCap_pos hs.config).2.2 _ hidx
  have hread : del = apTap s0 s.idx.toNat := by
    rw [hdel, hline.read hw.cfg hcap, apTap, hw.cfg]
  have hvalue : t.wires.v = chainValue s0 (s.idx.toNat + 1) := by
    rw [hwires, chainValue, ho, hread, hw.wires.ap hseq, hw.cfg]
  rcases Nat.lt_or_eq_of_le hidx with hlt | heq
  · obtain ⟨htseq, htidx⟩ := hnext hlt
    exact wetWires_at_ap htseq (htidx ▸ hvalue)
  · obtain ⟨htseq, -⟩ := hlast heq
    exact wetWires_after_aps (by rw [htseq]; decide) (by rw [hvalue, ← hw.cfg, ← heq])

theorem exec_wetWires {i : Instr} (hi : encode i = .seq s.seq) (hseq : s.seq ≠ Seq.idle) (hemit : i ≠ .emit)
    (h : exec i s = .next t) : WetWires s0 t := by
  have hdue : s.due i := .inl hi
  cases i with
  | comb => exact exec_comb_wetWires hs hw (hdue.seq_eq rfl) h
  | cnorm => exact exec_cnorm_wetWires hs hw (hdue.seq_eq rfl) h
  | ap => exact exec_ap_wetWires hs hw (hdue.seq_eq rfl) h
  | xfadeL | sclipL | xfadeR | sclipR =>
    refine wetWires_of_output h (by decide) (hw.wires.wet ?_)
    rw [hdue.seq_eq rfl]
    decide
  | emit => exact absurd rfl hemit
  | blkpro | gsched | send | biqLp | biqHp | pdly | idle =>
    refine exec_early_wetWires hi hseq ?_ h
    rw [hdue.seq_eq rfl]
    decide
  | _ => cases hi

theorem exec_wetPath {i : Instr} (hi : encode i = .seq s.seq) (hseq : s.seq ≠ Seq.idle) (hemit : i ≠ .emit)
    (h : exec i s = .next t) : WetPath s0 t where
  cfg := (parametersAndModeHaveOneWriter _ _ _ h).1.trans hw.cfg
  lines l hl := by
    obtain ⟨hahead, hsame⟩ := exec_sameLine hs hi hseq hemit h hl
    exact (hw.lines l hahead).trans hw.cfg hsame
  wires := exec_wetWires hs hw hi hseq hemit h

end

/-- The strobes are on no line and in no wire. -/
theorem WetPath.lowerStrobes {s0 s : State} (h : WetPath s0 s) : WetPath s0 (lowerStrobes s) where
  cfg := h.cfg
  lines l hl := (h.lines l hl).trans h.cfg (sameLine_of_eq rfl rfl rfl rfl)
  wires := ⟨h.wires.comb, h.wires.cnorm, h.wires.ap, h.wires.wet⟩

/-! ### One frame from SEND to EMIT -/

/-- A frame is the whole course of a RENDER that has one frame to go. -/
theorem Course.wetPath {k : Nat} {s0 s e : State} (h : Course k s e) (hone : s.fcnt = 1) (hw : WetPath s0 s) :
    WetPath s0 e := by
  induction h with
  | refl s => exact hw
  | @cons k s t e hs hrst hseq hstep hbusy _ ih =>
    have hemit : s.seq ≠ Seq.emit := by
      intro hemit
      rw [step_emit_last hs.config hrst hemit hone] at hstep
      cases hstep
      exact hbusy rfl
    obtain ⟨i, hdec, hexec⟩ := busy_step_cases hrst hseq hstep
    have hi : encode i = .seq s.seq := encode_of_decodeSeq hdec
    have hne : i ≠ .emit := by
      rintro rfl
      exact hemit (Code.seq.inj hi).symm
    have hinv := accept_inv hs
    rw [accept_of_busy hseq] at hinv
    have hfcnt : t.fcnt = s.fcnt := congrArg Session.fcnt (step_session hs.config hrst hseq hemit hstep)
    exact ih (hfcnt.trans hone) (exec_wetPath hinv hw.lowerStrobes hi hseq hne hexec)

/-- EMIT keeps the wires, whether the RENDER goes on or not. -/
theorem step_emit_wires {s : State} (hwf : s.cfg.WF) (hrst : s.rst = false) (hseq : s.seq = Seq.emit) :
    ∃ t, step s = .next t ∧ t.wires = s.wires := by
  by_cases hlast : s.fcnt = 1
  · exact ⟨_, step_emit_last hwf hrst hseq hlast, rfl⟩
  · exact ⟨_, step_emit_more hwf hrst hseq hlast, rfl⟩

/-- How many frames a RENDER has to go is not the invariant's, as long as it is busy. -/
theorem State.Inv.setFcnt {s : State} (hs : s.Inv) (hseq : s.seq ≠ Seq.idle) {n : BitVec 24} (hn : n ≠ 0) :
    State.Inv { s with fcnt := n } := by
  obtain ⟨hsound, hpos⟩ := inv_iff.mp hs
  obtain ⟨hmode, -, hle⟩ := hpos.busy hseq
  exact inv_iff.mpr ⟨hsound.congr rfl,
    { hpos with idle := fun hidle => absurd hidle hseq, busy := fun _ => ⟨hmode, hn, hle⟩ }⟩

/-- The state with the frame that is next made the last one. -/
def lastFrame (s : State) : State := { s with fcnt := 1 }

theorem framesDue_lastFrame {s : State} (hseq : s.seq = Seq.send) : framesDue (lastFrame s) = 1 := by
  simp [framesDue, lastFrame, hseq]

theorem renderLeft_lastFrame {s : State} (hseq : s.seq = Seq.send) : renderLeft (lastFrame s) = frameSteps s.cfg := by
  simp [renderLeft, lastFrame, hseq, frameLeft_send]

/-- A frame that begins with the lines of `s0` gives the wet sample read from `s0`, whatever the frame is. -/
theorem frame_wet {s0 s : State} (hs : s.Inv) (hrst : s.rst = false) (hseq : s.seq = Seq.send)
    (hoffer : 1 ≤ s.frameIn.length) (hcfg : s.cfg = s0.cfg) (hlines : ∀ l, SameLine l s0 s) :
    ∃ t, Sys2Proof.core.run (frameSteps s.cfg) s = .next t ∧ t.wires.v = chainValue s0 s0.cfg.m := by
  have hbusy : s.seq ≠ Seq.idle := by rw [hseq]; decide
  obtain ⟨-, hfcnt, -⟩ := hs.busy hbusy
  have hinv : (lastFrame s).Inv := hs.setFcnt hbusy (by decide)
  have hstart : WetPath s0 (lastFrame s) :=
    ⟨hcfg, fun l _ => (hlines l).trans hcfg (sameLine_of_eq rfl rfl rfl rfl),
      wetWires_before_combs (by rw [lastFrame, hseq]; decide)⟩
  obtain ⟨k, hk⟩ : ∃ k, frameSteps s.cfg = k + 1 := ⟨9 + s.cfg.n + s.cfg.m, by unfold frameSteps; omega⟩
  obtain ⟨e, hcourse, he, herst, hemit, -⟩ := course_to_last_emit k hinv hrst hbusy
    (framesDue_lastFrame hseq ▸ hoffer) ((renderLeft_lastFrame hseq).trans hk)
  have hwet := (hcourse.wetPath rfl hstart).wires.wet (by rw [hemit]; decide)
  -- The frame itself runs beside the last frame, in its own session.
  have hmore : s.fcnt.toNat = 1 + (s.fcnt.toNat - 1) := by bv_omega
  obtain ⟨d, hrun, -, -⟩ := hcourse.follows (d := s.session) hmore
  obtain ⟨t, hstep, hwires⟩ := step_emit_wires (s := e.inSession d) he.config herst hemit
  rw [hk]
  exact ⟨t, (run_add hrun 1).trans ((run_one _ _).trans hstep), (congrArg Wires.v hwires).trans hwet⟩

end Machine

/-! ### The obligation -/

open Machine

/-- Settles O52: with either frame offered the wet sample is `chainValue` of the state in front of the frame
(`frame_wet`), which does not look at the input port. -/
theorem wetSampleIgnoresTheFramesOwnInput : Obligations.WetSampleIgnoresTheFramesOwnInput := by
  intro s f g rest rest' hs hrst hseq
  have hwet (frame : Frame) (later : List Frame) := frame_wet (s0 := s) (s := { s with frameIn := frame :: later })
    (hs.congr rfl rfl) hrst hseq (Nat.succ_pos _) rfl fun l => sameLine_of_eq rfl rfl rfl rfl
  obtain ⟨t, ht, htwet⟩ := hwet f rest
  obtain ⟨u, hu, huwet⟩ := hwet g rest'
  exact ⟨t, u, ht, hu, htwet.trans huwet.symm⟩

end Sys2Proof
end

section
/-! PROOFS. Families 60_exceptions.md and 70_reset_and_hazards.md, errors and reset: a failed INIT (O17), which status is
reported (O18), commands while UNINIT (O22), reserved words (O23), hardware reset (O43). -/

namespace Sys2Proof
namespace Machine

/-! ### INIT and its three checks (R171, R194, R195) -/

/-- The checks of INIT in the order of R194: the first that fails gives the status. -/
theorem initFailure_getD (c : Cfg) (fs : BitVec 24) (inch outch : BitVec 2) :
    (initFailure c fs inch outch).getD Status.ok =
      if fs.toNat ≠ c.fsHz then Status.errSampleRate
      else if inch.toNat ≠ 2 ∨ outch.toNat ≠ 2 then Status.errGeometry
      else if c.memWords < c.reqWords then Status.errMemory
      else Status.ok := by
  unfold initFailure operandFs operandChannels
  split_ifs <;> rfl

/-- One failing check is enough for INIT to fail, and no failure reports OK. -/
theorem exists_initFailure {c : Cfg} {fs : BitVec 24} {inch outch : BitVec 2}
    (h : fs.toNat ≠ c.fsHz ∨ inch.toNat ≠ 2 ∨ outch.toNat ≠ 2 ∨ c.memWords < c.reqWords) :
    ∃ st, st ≠ Status.ok ∧ initFailure c fs inch outch = some st := by
  by_cases hrate : fs.toNat = c.fsHz
  · by_cases hgeometry : inch.toNat ≠ 2 ∨ outch.toNat ≠ 2
    · exact ⟨Status.errGeometry, by decide, (if_neg (not_not.mpr hrate)).trans (if_pos hgeometry)⟩
    · have hmem : c.memWords < c.reqWords := by tauto
      exact ⟨Status.errMemory, by decide,
        (if_neg (not_not.mpr hrate)).trans ((if_neg hgeometry).trans (if_pos hmem))⟩
  · exact ⟨Status.errSampleRate, by decide, if_pos hrate⟩

theorem execInit_of_failure {s : State} {fs : BitVec 24} {inch outch : BitVec 2} {st : BitVec 4}
    (h : initFailure s.cfg fs inch outch = some st) : execInit inch outch fs s = .next (raiseFailure st s) := by
  rw [execInit, h]

/-- INIT reports the failure if there is one, and OK otherwise. -/
theorem execInit_status {inch outch : BitVec 2} {fs : BitVec 24} {s t : State} (h : execInit inch outch fs s = .next t) :
    t.rspStatus = (initFailure s.cfg fs inch outch).getD Status.ok := by
  cases hfail : initFailure s.cfg fs inch outch with
  | none =>
    rw [execInit_of_success hfail] at h
    cases h
    rfl
  | some st =>
    rw [execInit_of_failure hfail] at h
    cases h
    rfl

/-! ### Commands that only respond (R196, R197) -/

/-- The four rows of reserved words (R88(a)). -/
def reservedWords (r28 : BitVec 28) (r29 : BitVec 29) (r31 : BitVec 31) : List Instr :=
  [.reservedOp0 r28, .reservedOp5 r28, .reservedOp6_7 r29, .reservedOp8_15 r31]

/-- The commands that wait for `MODE = READY`: SETP, GETP and RENDER (R170, R196). -/
def readyCommands (v : BitVec 24) (id : BitVec 4) : List Instr :=
  [.setpTime v, .setpDepth v, .setpMix v, .setpUnknown id v, .getpTime v, .getpDepth v, .getpMix v, .getpUnknown id v,
    .render id v]

/-- A reserved word does the same in either MODE. -/
theorem exec_reservedWord {i : Instr} {r28 : BitVec 28} {r29 : BitVec 29} {r31 : BitVec 31}
    (hi : i ∈ reservedWords r28 r29 r31) (s : State) : exec i s = .next (respond Status.errIllegal 0 s) := by
  simp only [reservedWords, List.mem_cons, List.not_mem_nil, or_false] at hi
  rcases hi with rfl | rfl | rfl | rfl <;> rfl

/-- While UNINIT a command that waits for READY does not do what it is for. -/
theorem next_whenReady_of_uninit {s : State} (hmode : s.mode = .uninit) (act : State → State) :
    (.next (whenReady s act) : Result) = .next (respond Status.errUninit 0 s) := by
  rw [whenReady, hmode]

theorem exec_readyCommand_of_uninit {i : Instr} {v : BitVec 24} {id : BitVec 4} {s : State} (hmode : s.mode = .uninit)
    (hi : i ∈ readyCommands v id) : exec i s = .next (respond Status.errUninit 0 s) := by
  simp only [readyCommands, List.mem_cons, List.not_mem_nil, or_false] at hi
  rcases hi with rfl | rfl | rfl | rfl | rfl | rfl | rfl | rfl | rfl <;> exact next_whenReady_of_uninit hmode _

/-- What a command that is just a response reports, and that it is one response (R44, R194). -/
theorem status_of_respond {i : Instr} {st : BitVec 4} {d : BitVec 32} {s t : State}
    (hexec : exec i s = .next (respond st d s)) (h : exec i s = .next t) :
    t.rspStatus = st ∧ t.rspOut.length = s.rspOut.length + 1 := by
  cases hexec.symm.trans h
  exact ⟨rfl, List.length_append⟩

end Machine

/-! ### The obligations -/

open Machine

/-- Settles O17: a failing check raises its failure, whose end state is `raiseFailure_spec`. -/
theorem failedInitDestroysTheEngine : Obligations.FailedInitDestroysTheEngine := by
  intro s inch outch fs hfails
  obtain ⟨st, hst, hfailure⟩ := exists_initFailure hfails
  obtain ⟨hmode, hstatus, hdata, -, -, hfcnt, hseq, hidx, hcfg, hwords⟩ := raiseFailure_spec st s
  exact ⟨_, execInit_of_failure hfailure, hmode, hdata, hstatus ▸ hst, hfcnt, hseq, hidx, hwords, hcfg, rfl, rfl, rfl,
    rfl, rfl⟩

/-- Settles O18: INIT reports the first failing check, the others are one response with a fixed status. -/
theorem statusPriority : Obligations.StatusPriority := by
  refine ⟨fun s t inch outch fs h => ?init, fun s t inch outch fs h => ?once,
    fun s t r28 r29 r31 i hi h => status_of_respond (exec_reservedWord hi s) h,
    fun s t v id hmode i hi h => status_of_respond (exec_readyCommand_of_uninit hmode hi) h⟩
  case init => exact (execInit_status h).trans (initFailure_getD ..)
  case once =>
    obtain ⟨hresponds, -⟩ := exec_responses h
    rw [(hresponds trivial).2]
    exact List.length_append

/-- Settles O22: while UNINIT each of these commands is the response alone. -/
theorem uninitEngineRefusesCommands : Obligations.UninitEngineRefusesCommands :=
  fun _ _ _ hmode _ hi => ⟨_, exec_readyCommand_of_uninit hmode hi, onlyResponds_respond .., fun _ => rfl⟩

/-- Settles O23: a reserved word is the response alone. -/
theorem reservedWordsAreIllegal : Obligations.ReservedWordsAreIllegal :=
  fun s _ _ _ _ hi => ⟨_, exec_reservedWord hi s, onlyResponds_respond .., fun _ => rfl⟩

/-- Settles O43: the step is `hardReset`, whatever was under way. -/
theorem resetAbandonsEverything : Obligations.ResetAbandonsEverything := by
  intro s hwf hrst
  obtain ⟨hmode, hfcnt, hseq, hidx, hrsp, hout, hdown, hcfg, hresponses, hframes⟩ := hardReset_spec s
  exact ⟨_, step_of_rst hwf hrst, hmode, hfcnt, hseq, hidx, hout, hrsp, rfl, rfl, hresponses, hframes, rfl, rfl, hcfg,
    hdown⟩

end Sys2Proof
end

section
/-! PROOFS. Family 70_reset_and_hazards.md, silence (O51). -/

namespace Sys2Proof
namespace Machine

/-! ### A silent datapath (R214) -/

/-- What every operation of a silent frame leaves as it is: the configuration, the taps, what each word of DMEM reads as,
the dry weight and the frames given so far. -/
structure Standing where
  cfg : Cfg
  lpTaps : QA × QA
  hpTaps : QA × QA
  dzTap : Nat → QA
  word : Nat → Q
  dryw : Q
  frameOut : List Frame

def State.standing (s : State) : Standing :=
  ⟨s.cfg, (s.lpz1, s.lpz2), (s.hpz1, s.hpz2), fun i => s.dz.getD i 0, s.mem.read, s.dryw, s.frameOut⟩

section
variable {s t : State}

theorem silent_of_standing (h : t.standing = s.standing) (hs : s.Silent) : t.Silent := by
  simp only [State.standing, Standing.mk.injEq, Prod.mk.injEq] at h
  obtain ⟨hcfg, ⟨hl1, hl2⟩, ⟨hh1, hh2⟩, hdz, hwords, -⟩ := h
  constructor
  case lpTaps => rw [hl1, hl2]; exact hs.lpTaps
  case hpTaps => rw [hh1, hh2]; exact hs.hpTaps
  case dzTaps => rw [hcfg]; exact fun i hi => (congrFun hdz i).trans (hs.dzTaps i hi)
  case words => rw [hcfg, hwords]; exact hs.words

/-- DL.RD of a silent line gives 0. -/
theorem State.Silent.read (hs : s.Silent) {l : LineId} (hcap : 0 < lineCap s.cfg l) (k : Nat) :
    s.mem.read (readAddr l k s) = 0 :=
  hs.words _ ((readAddr_lt l k s hcap).2.trans_le (lineEnd_le s.cfg l))

/-- A zero stored into a silent line changes no word. -/
theorem State.Silent.read_of_store (hs : s.Silent) {l : LineId} (hcur : s.cursorOk l)
    (hstore : StoresWord s t (writeAddr l s) 0) : t.mem.read = s.mem.read := by
  obtain ⟨hword, hothers⟩ := hstore
  funext a
  by_cases ha : a = writeAddr l s
  · rw [ha, hword]
    exact (hs.words _ ((writeAddr_lt l s hcur).2.trans_le (lineEnd_le s.cfg l))).symm
  · exact hothers a ha

end

/-! ### Zero through the arithmetic (R101, R102) -/

@[simp] theorem round_zero (k : Nat) : sat32 (rtz 0 k) = 0 := by
  rw [(rtz_eq_zero_iff 0 k).mpr (by positivity)]
  rfl

/-- A two-pole filter at rest with input 0 gives 0 and stays at rest (R132). -/
theorem biquad_of_zero {co : Coef2} {x y : Q} {z1 z2 u1 u2 : QA} (hx : x = 0) (hz1 : z1 = 0) (hz2 : z2 = 0)
    (hy : y = sat32 (rtz (z1.toInt + co.b0.toInt * x.toInt) 24))
    (hu1 : u1.toInt = z2.toInt + co.b1.toInt * x.toInt - co.a1.toInt * y.toInt)
    (hu2 : u2.toInt = co.b2.toInt * x.toInt - co.a2.toInt * y.toInt) : y = 0 ∧ u1 = z1 ∧ u2 = z2 := by
  subst hx hz1 hz2
  obtain rfl : y = 0 := by simpa using hy
  exact ⟨rfl, BitVec.eq_of_toInt_eq (by simpa using hu1), BitVec.eq_of_toInt_eq (by simpa using hu2)⟩

theorem sum_toInt_of_zeros {rs : List Q} (h : ∀ r ∈ rs, r = 0) : (rs.map (·.toInt)).sum = 0 := by
  refine List.sum_eq_zero fun v hv => ?_
  obtain ⟨r, hr, rfl⟩ := List.mem_map.mp hv
  rw [h r hr]
  rfl

/-! ### The frame, stage by stage -/

/-- The input frame under way (R177). -/
def State.input (s : State) : Frame := ⟨s.wires.xL, s.wires.xR⟩

/-- The crossfade of `x` with a wet sample of 0 (R161). -/
def dryMix (s : State) (x : Q) : Q := sat32 (rtz (s.dryw.toInt * x.toInt) 24)

/-- What the output stage makes of `x` with a wet sample of 0 (R161, R163). -/
def dryOut (s : State) (x : Q) : Q := softClip s.cfg (dryMix s x)

/-- Where a silent frame `f` that began in `s0` can stand, at the STEP code `code` with the wires `w` and, for SEND, the
offered frames and the send gain: zeros on the way to the output stage, the dry input alone in it. -/
inductive SilentStage (f : Frame) (s0 : State) (code : BitVec 5) (offered : List Frame) (sendg : Q) (w : Wires) : Prop
  | send {rest : List Frame} (hseq : code = Seq.send) (hin : offered = f :: rest)
      (hvalue : sat32 (rtz ((f.l.toInt + f.r.toInt) * sendg.toInt) 25) = 0)
  | lowpass (hseq : code = Seq.biqLp) (hx : w.s = 0)
  | highpass (hseq : code = Seq.biqHp) (hx : w.t1 = 0)
  | preDelay (hseq : code = Seq.pdly) (hx : w.t2 = 0)
  | combLine (hseq : code = Seq.comb) (hx : w.p = 0) (hr : ∀ r ∈ w.r, r = 0)
  | normalise (hseq : code = Seq.cnorm) (hr : ∀ r ∈ w.r, r = 0)
  | allPass (hseq : code = Seq.ap) (hv : w.v = 0)
  | mixLeft (hseq : code = Seq.xfadeL) (hv : w.v = 0)
  | clipLeft (hseq : code = Seq.sclipL) (hv : w.v = 0) (hm : w.mL = dryMix s0 f.l)
  | mixRight (hseq : code = Seq.xfadeR) (hv : w.v = 0) (hy : w.yL = dryOut s0 f.l)
  | clipRight (hseq : code = Seq.sclipR) (hv : w.v = 0) (hy : w.yL = dryOut s0 f.l) (hm : w.mR = dryMix s0 f.r)
  | emit (hseq : code = Seq.emit) (hv : w.v = 0) (hyL : w.yL = dryOut s0 f.l) (hyR : w.yR = dryOut s0 f.r)

/-- The stage of a state. -/
abbrev State.SilentAt (s : State) (f : Frame) (s0 : State) : Prop := SilentStage f s0 s.seq s.frameIn s.sendg s.wires

/-- The frame `f` that began in `s0` has come to `s` in silence. -/
structure SilentPath (f : Frame) (s0 s : State) : Prop where
  standing : s.standing = s0.standing
  taken : s.seq ≠ Seq.send → s.input = f
  stage : s.SilentAt f s0

section
variable {f : Frame} {s0 s t : State}

/-- An operation after SEND keeps the path if its end state, as its rule gives it, has all that stands and the input as
they were. -/
theorem SilentPath.move {u : State} (hp : SilentPath f s0 s) (hseq : s.seq ≠ Seq.send) (hframe : t = u)
    (hstanding : u.standing = s.standing) (hinput : u.input = s.input) (hstage : u.SilentAt f s0) :
    SilentPath f s0 t := by
  subst hframe
  exact ⟨hstanding.trans hp.standing, fun _ => hinput.trans (hp.taken hseq), hstage⟩

/-- SEND takes the frame, and its send value is 0 (R160). -/
theorem exec_send_silent {rest : List Frame} (hp : SilentPath f s0 s) (hin : s.frameIn = f :: rest)
    (hvalue : sat32 (rtz ((f.l.toInt + f.r.toInt) * s.sendg.toInt) 25) = 0) :
    ∃ t, exec .send s = .next t ∧ SilentPath f s0 t := by
  obtain ⟨t, hexec, hx, -, hframe, -⟩ := sendScalesTheMeanOfTheFrame s f rest hin
  exact ⟨t, hexec, (congrArg State.standing hframe).trans hp.standing, fun _ => congrArg State.input hframe,
    .lowpass (congrArg State.seq hframe) (hx.trans hvalue)⟩

section
variable (hs0 : s0.Silent) (hp : SilentPath f s0 s)
include hs0 hp

theorem SilentPath.silent : s.Silent := silent_of_standing hp.standing hs0

theorem exec_biqLp_silent (hseq : s.seq = Seq.biqLp) (hx : s.wires.s = 0) :
    ∃ t, exec .biqLp s = .next t ∧ SilentPath f s0 t := by
  obtain ⟨hz1, hz2⟩ := (hp.silent hs0).lpTaps
  obtain ⟨t, hexec, hy, hu1, hu2, hframe, -⟩ :=
    biquadsFollowTheirRule.1 s (by rw [hz1]; decide) (by rw [hz2]; decide)
  obtain ⟨hy, hu1, hu2⟩ := biquad_of_zero hx hz1 hz2 hy hu1 hu2
  rw [hu1, hu2] at hframe
  exact ⟨t, hexec, hp.move (by rw [hseq]; decide) hframe rfl rfl (.highpass rfl hy)⟩

theorem exec_biqHp_silent (hseq : s.seq = Seq.biqHp) (hx : s.wires.t1 = 0) :
    ∃ t, exec .biqHp s = .next t ∧ SilentPath f s0 t := by
  obtain ⟨hz1, hz2⟩ := (hp.silent hs0).hpTaps
  obtain ⟨t, hexec, hy, hu1, hu2, hframe, -⟩ :=
    biquadsFollowTheirRule.2 s (by rw [hz1]; decide) (by rw [hz2]; decide)
  obtain ⟨hy, hu1, hu2⟩ := biquad_of_zero hx hz1 hz2 hy hu1 hu2
  rw [hu1, hu2] at hframe
  exact ⟨t, hexec, hp.move (by rw [hseq]; decide) hframe rfl rfl (.preDelay rfl hy)⟩

/-! The three kinds of delay line: each stores a zero into its silent line and reads a zero. -/

theorem exec_pdly_silent (hs : s.Inv) (hseq : s.seq = Seq.pdly) (hx : s.wires.t2 = 0) :
    ∃ t, exec .pdly s = .next t ∧ SilentPath f s0 t := by
  have hsilent := hp.silent hs0
  have hengine := hs.engine (hs.busy (by rw [hseq]; decide)).1
  obtain ⟨t, hexec, hstore, -, -, hread, -, hframe⟩ :=
    preDelayWritesThenReads s hs.config hengine.storage hengine.preCursor hs.memory.1
  rw [hx] at hstore
  have hmem := hsilent.read_of_store hengine.preCursor hstore
  have haddr : (((t.pcur : Int) - s.cfg.preD) % s.cfg.preCap).toNat < s.cfg.reqWords := by
    have hcap : 0 < s.cfg.preCap := (lineCap_pos hs.config).1
    have hend : 0 + s.cfg.preCap ≤ s.cfg.reqWords := lineEnd_le s.cfg .pre
    have hlt := Int.emod_lt_of_pos ((t.pcur : Int) - s.cfg.preD) (Int.natCast_pos.mpr hcap)
    omega
  have hzero : t.wires.p = 0 := by
    rw [hread, hmem]
    exact hsilent.words _ haddr
  exact ⟨t, hexec, hp.move (by rw [hseq]; decide) hframe (by simp only [State.standing, hmem]) rfl
    (.combLine rfl hzero fun r hr => nomatch hr)⟩

theorem exec_comb_silent (hs : s.Inv) (hseq : s.seq = Seq.comb) (hx : s.wires.p = 0) (hr : ∀ r ∈ s.wires.r, r = 0) :
    ∃ t, exec .comb s = .next t ∧ SilentPath f s0 t := by
  have hsilent := hp.silent hs0
  have hengine := hs.engine (hs.busy (by rw [hseq]; decide)).1
  obtain ⟨hdz, hccur, hfbg, -⟩ := hs.lengths
  have hidx := (hs.combIdx hseq).1
  obtain ⟨t, r, d, w, hexec, hread, hd, hw, htap, htaps, -, hstore, -, -, hwires, hnext, hlast, hframe⟩ :=
    combLineFollowsItsRule s s.idx.toNat rfl hidx hs.config hengine.storage hdz hccur hfbg
      (hengine.combCursors _ hidx) hs.memory.1 (hengine.dzTaps _ hidx)
  have hzero := hsilent.dzTaps _ hidx
  obtain rfl : r = 0 := hread.trans (hsilent.read ((lineCap_pos hs.config).2.1 _ hidx) _)
  obtain rfl : d = 0 := by rw [hd, hzero]; simp
  obtain rfl : w = 0 := by simpa [hx] using hw
  have hmem := hsilent.read_of_store (hengine.combCursors _ hidx) hstore
  have hdz' : ∀ k, t.dz.getD k 0 = s.dz.getD k 0 := fun k => by
    by_cases hk : k = s.idx.toNat
    · rw [hk, hzero]
      exact BitVec.eq_of_toInt_eq (by simpa using htap)
    · exact htaps k hk
  have hresults : ∀ v ∈ t.wires.r, v = 0 := by
    rw [hwires]
    simpa [or_imp, forall_and] using hr
  have hstage : t.SilentAt f s0 := by
    rcases Nat.lt_or_eq_of_le hidx with hlt | heq
    · exact .combLine (hnext hlt).1 (by rw [hwires]; exact hx) hresults
    · exact .normalise (hlast heq).1 hresults
  rw [hframe] at hstage
  exact ⟨t, hexec, hp.move (by rw [hseq]; decide) hframe (by simp only [State.standing, hmem, hdz'])
    (by rw [hwires]; rfl) hstage⟩

theorem exec_ap_silent (hs : s.Inv) (hseq : s.seq = Seq.ap) (hv : s.wires.v = 0) :
    ∃ t, exec .ap s = .next t ∧ SilentPath f s0 t := by
  have hsilent := hp.silent hs0
  have hengine := hs.engine (hs.busy (by rw [hseq]; decide)).1
  obtain ⟨-, -, -, hacur⟩ := hs.lengths
  have hidx := hs.apIdx hseq
  obtain ⟨t, del, o, w, hexec, hread, ho, hw, hstore, -, -, hwires, hnext, hlast, hframe⟩ :=
    allPassLineFollowsItsRule s s.idx.toNat rfl hidx hs.config hengine.storage hacur (hengine.apCursors _ hidx)
      hs.memory.1
  obtain rfl : del = 0 := hread.trans (hsilent.read ((lineCap_pos hs.config).2.2 _ hidx) _)
  obtain rfl : o = 0 := by simpa [hv] using ho
  obtain rfl : w = 0 := by simpa [hv] using hw
  have hmem := hsilent.read_of_store (hengine.apCursors _ hidx) hstore
  have hwet : t.wires.v = 0 := congrArg Wires.v hwires
  have hstage : t.SilentAt f s0 := by
    rcases Nat.lt_or_eq_of_le hidx with hlt | heq
    · exact .allPass (hnext hlt).1 hwet
    · exact .mixLeft (hlast heq).1 hwet
  rw [hframe] at hstage
  exact ⟨t, hexec, hp.move (by rw [hseq]; decide) hframe (by simp only [State.standing, hmem]) (by rw [hwires]; rfl)
    hstage⟩

end

/-! The rest leaves the datapath alone (R143, R161, R163). -/

section
variable (hp : SilentPath f s0 s)
include hp

theorem exec_cnorm_silent (hs : s.Inv) (hseq : s.seq = Seq.cnorm) (hr : ∀ r ∈ s.wires.r, r = 0) :
    ∃ t, exec .cnorm s = .next t ∧ SilentPath f s0 t := by
  have ⟨⟨_, hn64, _⟩, _⟩ := hs.config
  obtain ⟨t, hexec, hv, hframe, -⟩ := normalisationScalesTheExactSum s (hs.cnormResults hseq ▸ hn64)
  rw [sum_toInt_of_zeros hr, zero_mul, round_zero] at hv
  exact ⟨t, hexec, hp.move (by rw [hseq]; decide) hframe rfl rfl (.allPass rfl hv)⟩

theorem SilentPath.cfg_eq : s.cfg = s0.cfg := congrArg Standing.cfg hp.standing

/-- The crossfade of an input sample with the wet sample 0. -/
theorem SilentPath.dryMix_eq (x : Q) (hv : s.wires.v = 0) :
    sat32 (rtz (s.dryw.toInt * x.toInt + s.wetw.toInt * s.wires.v.toInt) 24) = dryMix s0 x := by
  have hdryw : s.dryw = s0.dryw := congrArg Standing.dryw hp.standing
  simp [dryMix, hv, hdryw]

theorem exec_xfadeL_silent (hseq : s.seq = Seq.xfadeL) (hv : s.wires.v = 0) :
    ∃ t, exec .xfadeL s = .next t ∧ SilentPath f s0 t := by
  have hne : s.seq ≠ Seq.send := by rw [hseq]; decide
  obtain ⟨t, hexec, hm, hframe, -⟩ := crossfadesFollowTheirRule.1 s
  have hx : s.wires.xL = f.l := congrArg Frame.l (hp.taken hne)
  rw [hp.dryMix_eq _ hv, hx] at hm
  exact ⟨t, hexec, hp.move hne hframe rfl rfl (.clipLeft rfl hv hm)⟩

theorem exec_xfadeR_silent (hseq : s.seq = Seq.xfadeR) (hv : s.wires.v = 0) (hy : s.wires.yL = dryOut s0 f.l) :
    ∃ t, exec .xfadeR s = .next t ∧ SilentPath f s0 t := by
  have hne : s.seq ≠ Seq.send := by rw [hseq]; decide
  obtain ⟨t, hexec, hm, hframe, -⟩ := crossfadesFollowTheirRule.2 s
  have hx : s.wires.xR = f.r := congrArg Frame.r (hp.taken hne)
  rw [hp.dryMix_eq _ hv, hx] at hm
  exact ⟨t, hexec, hp.move hne hframe rfl rfl (.clipRight rfl hv hy hm)⟩

theorem exec_sclipL_silent (hseq : s.seq = Seq.sclipL) (hv : s.wires.v = 0) (hm : s.wires.mL = dryMix s0 f.l) :
    ∃ t, exec .sclipL s = .next t ∧ SilentPath f s0 t := by
  obtain ⟨t, hexec, hy, hframe, -⟩ := softClipsFollowTheirRule.1 s
  rw [hm, hp.cfg_eq] at hy
  exact ⟨t, hexec, hp.move (by rw [hseq]; decide) hframe rfl rfl (.mixRight rfl hv hy)⟩

theorem exec_sclipR_silent (hseq : s.seq = Seq.sclipR) (hv : s.wires.v = 0) (hyL : s.wires.yL = dryOut s0 f.l)
    (hm : s.wires.mR = dryMix s0 f.r) : ∃ t, exec .sclipR s = .next t ∧ SilentPath f s0 t := by
  obtain ⟨t, hexec, hy, hframe, -⟩ := softClipsFollowTheirRule.2 s
  rw [hm, hp.cfg_eq] at hy
  exact ⟨t, hexec, hp.move (by rw [hseq]; decide) hframe rfl rfl (.emit rfl hv hyL hy)⟩

/-- Each operation up to EMIT takes a silent frame on to its next stage. -/
theorem exec_silentPath {i : Instr} (hs0 : s0.Silent) (hs : s.Inv) (hdec : decode (.seq s.seq) = .ok i)
    (hemit : s.seq ≠ Seq.emit) : ∃ t, exec i s = .next t ∧ SilentPath f s0 t := by
  have hrun : ∀ {c j}, s.seq = c → decode (.seq c) = .ok j → (∃ t, exec j s = .next t ∧ SilentPath f s0 t) →
      ∃ t, exec i s = .next t ∧ SilentPath f s0 t := by
    rintro c j rfl hj ht
    cases hdec.symm.trans hj
    exact ht
  cases hp.stage with
  | send hseq hin hvalue => exact hrun hseq rfl (exec_send_silent hp hin hvalue)
  | lowpass hseq hx => exact hrun hseq rfl (exec_biqLp_silent hs0 hp hseq hx)
  | highpass hseq hx => exact hrun hseq rfl (exec_biqHp_silent hs0 hp hseq hx)
  | preDelay hseq hx => exact hrun hseq rfl (exec_pdly_silent hs0 hp hs hseq hx)
  | combLine hseq hx hr => exact hrun hseq rfl (exec_comb_silent hs0 hp hs hseq hx hr)
  | normalise hseq hr => exact hrun hseq rfl (exec_cnorm_silent hp hs hseq hr)
  | allPass hseq hv => exact hrun hseq rfl (exec_ap_silent hs0 hp hs hseq hv)
  | mixLeft hseq hv => exact hrun hseq rfl (exec_xfadeL_silent hp hseq hv)
  | clipLeft hseq hv hm => exact hrun hseq rfl (exec_sclipL_silent hp hseq hv hm)
  | mixRight hseq hv hy => exact hrun hseq rfl (exec_xfadeR_silent hp hseq hv hy)
  | clipRight hseq hv hy hm => exact hrun hseq rfl (exec_sclipR_silent hp hseq hv hy hm)
  | emit hseq => exact absurd hseq hemit

/-- At EMIT the wet sample is 0 and the outputs are those of the dry input. -/
theorem SilentPath.at_emit (hseq : s.seq = Seq.emit) :
    s.wires.v = 0 ∧ s.wires.yL = dryOut s0 f.l ∧ s.wires.yR = dryOut s0 f.r := by
  have hstage := hp.stage
  rw [State.SilentAt, hseq] at hstage
  cases hstage with
  | emit _ hv hyL hyR => exact ⟨hv, hyL, hyR⟩
  | _ => contradiction

/-- The strobes are no part of the frame. -/
theorem SilentPath.lowerStrobes : SilentPath f s0 (lowerStrobes s) where
  standing := hp.standing
  taken := hp.taken
  stage := hp.stage

/-- A step of the machine lowers the strobes and runs the operation. -/
theorem exec_lowered_silentPath {i : Instr} (hs0 : s0.Silent) (hs : s.Inv) (hdec : decode (.seq s.seq) = .ok i)
    (hemit : s.seq ≠ Seq.emit) (h : exec i (lowerStrobes s) = .next t) : SilentPath f s0 t := by
  obtain ⟨u, hu, hpath⟩ := exec_silentPath hp.lowerStrobes hs0 (hs.congr rfl rfl) hdec hemit
  cases hu.symm.trans h
  exact hpath

end
end

/-! ### One frame from SEND to EMIT -/

/-- What every operation up to EMIT keeps holds at the EMIT of a RENDER that has one frame to go. -/
theorem Course.keeps {P : State → Prop} {k : Nat} {s e : State} (h : Course k s e) (hone : s.fcnt = 1)
    (hexec : ∀ {i s t}, s.Inv → decode (.seq s.seq) = .ok i → s.seq ≠ Seq.emit → P s →
      exec i (lowerStrobes s) = .next t → P t) (hs : P s) : P e := by
  induction h with
  | refl s => exact hs
  | @cons k s t e hinv hrst hseq hstep hbusy _ ih =>
    have hemit : s.seq ≠ Seq.emit := by
      intro hemit
      rw [step_emit_last hinv.config hrst hemit hone] at hstep
      cases hstep
      exact hbusy rfl
    obtain ⟨i, hdec, hi⟩ := busy_step_cases hrst hseq hstep
    have hfcnt : t.fcnt = s.fcnt := congrArg Session.fcnt (step_session hinv.config hrst hseq hemit hstep)
    exact ih (hfcnt.trans hone) (hexec hinv hdec hemit hs hi)

/-- A frame that is offered runs in its own session beside the frame that is the last one, up to the EMIT. -/
theorem frame_course {s : State} (hs : s.Inv) (hrst : s.rst = false) (hseq : s.seq = Seq.send)
    (hoffer : 1 ≤ s.frameIn.length) : ∃ k e d, Course k (lastFrame s) e ∧ e.Inv ∧ e.rst = false ∧ e.seq = Seq.emit ∧
      Sys2Proof.core.run (frameSteps s.cfg) s = step (e.inSession d) := by
  have hbusy : s.seq ≠ Seq.idle := by rw [hseq]; decide
  obtain ⟨-, hfcnt, -⟩ := hs.busy hbusy
  obtain ⟨k, hk⟩ : ∃ k, frameSteps s.cfg = k + 1 := ⟨9 + s.cfg.n + s.cfg.m, by unfold frameSteps; omega⟩
  have hinv : (lastFrame s).Inv := hs.setFcnt hbusy (by decide)
  obtain ⟨e, hcourse, he, herst, hemit, -⟩ := course_to_last_emit k hinv hrst hbusy
    (framesDue_lastFrame hseq ▸ hoffer) ((renderLeft_lastFrame hseq).trans hk)
  have hmore : s.fcnt.toNat = 1 + (s.fcnt.toNat - 1) := by bv_omega
  obtain ⟨d, hrun, -⟩ := hcourse.follows (d := s.session) hmore
  refine ⟨k, e, d, hcourse, he, herst, hemit, ?_⟩
  rw [hk]
  exact (run_add hrun 1).trans (run_one _ _)

/-- EMIT gives the frame and keeps the wires and the silence, whether the RENDER goes on or not (R177). -/
theorem step_emit_gives {s : State} (hwf : s.cfg.WF) (hrst : s.rst = false) (hseq : s.seq = Seq.emit)
    (hs : s.Silent) : ∃ t, step s = .next t ∧ t.Silent ∧ t.wires = s.wires ∧ t.outL = s.wires.yL ∧
      t.outR = s.wires.yR ∧ t.frameOut = s.frameOut ++ [⟨t.outL, t.outR⟩] := by
  obtain ⟨hlp, hhp, hdz, hwords⟩ := hs
  by_cases hlast : s.fcnt = 1
  · exact ⟨_, step_emit_last hwf hrst hseq hlast, ⟨hlp, hhp, hdz, hwords⟩, rfl, rfl, rfl, rfl⟩
  · exact ⟨_, step_emit_more hwf hrst hseq hlast, ⟨hlp, hhp, hdz, hwords⟩, rfl, rfl, rfl, rfl⟩

/-- A zero sample comes out of the output stage as 0 (R164(a)). -/
theorem dryOut_zero {s : State} (hwf : s.cfg.WF) : dryOut s 0 = 0 := by
  have ⟨_, _, _, _, _, ⟨_, hpost⟩, _⟩ := hwf
  obtain ⟨-, hzero, -⟩ := softClipIsBoundedAndOdd s.cfg 0 hpost
  simpa [dryOut, dryMix] using hzero

end Machine

/-! ### The obligation -/

open Machine

/-- Settles O51: every operation of the frame finds zeros and leaves zeros (`exec_silentPath`), so the frame comes to EMIT
with the dry input alone in the output wires. -/
theorem silentFrameStaysSilent : Obligations.SilentFrameStaysSilent := by
  intro s f rest hs hrst hseq hin hsilent hvalue
  obtain ⟨k, e, d, hcourse, he, herst, hemit, hrun⟩ := frame_course hs hrst hseq (by rw [hin]; exact Nat.succ_pos _)
  have hstart : SilentPath f s (lastFrame s) := ⟨rfl, fun hne => absurd hseq hne, .send hseq hin hvalue⟩
  have hpath : SilentPath f s e :=
    hcourse.keeps rfl (fun hinv hdec hne hp h => exec_lowered_silentPath hp hsilent hinv hdec hne h) hstart
  obtain ⟨hv, hyL, hyR⟩ := hpath.at_emit hemit
  obtain ⟨t, hstep, hquiet, hwires, hL, hR, hout⟩ := step_emit_gives (s := e.inSession d) he.config herst hemit
    (silent_of_standing (s := e) rfl (hpath.silent hsilent))
  have hgiven : e.frameOut = s.frameOut := congrArg Standing.frameOut hpath.standing
  refine ⟨t, hrun.trans hstep, hquiet, (congrArg Wires.v hwires).trans hv, hL.trans hyL, hR.trans hyR,
    hgiven ▸ hout, ?zero⟩
  case zero =>
    rintro rfl
    have hdry : dryOut s 0 = 0 := dryOut_zero hs.config
    exact ⟨(hL.trans hyL).trans hdry, (hR.trans hyR).trans hdry⟩

end Sys2Proof
end
